-- ==== Sys2Proof/Word.lean ====
section
/-!
DEFINITION. The word types of the BX4810 and their plainest arithmetic (00_scope R4, R5, R17).
-/
namespace Sys2Proof

/-- A data word, 32 bits (R5). -/
abbrev Word := BitVec 32

/-- A half, 16 bits (R5). -/
abbrev Half := BitVec 16

/-- A byte (R5). -/
abbrev Byte := BitVec 8

/-- The 96-bit instruction word (R57). -/
abbrev IWord := BitVec 96

/-- The number of a hearth, 0 to 63 (R20). -/
abbrev Hid := Fin 64

end Sys2Proof
end

