-- ==== Sys2Proof/Syntax.lean ====
section
/-!
DEFINITION. The commands of the BX4810: one constructor of Instr per row of the table of operations and events
(opcode_table.json), with the operands a command brings, and the plain types those operands use.
-/
namespace Sys2Proof

/-- The four modes of a hearth (07_worlds_gates R183). -/
inductive Mode where
  | pu
  | ps
  | gu
  | gs
deriving DecidableEq, Repr

/-- Who makes a bus access: a crossbar master (14_memory_crossbar Table XB-2), the hearth it stands for where it
is a stack port, and the mode it carries. -/
structure Who where
  master : Fin 15
  hearth : Option Hid
  mode   : Mode
deriving DecidableEq, Repr

/-- Scopes of FENCE (05 Table OM-9). -/
inductive FenceScope where
  | both
  | near
  | far
deriving DecidableEq, Repr

/-- Scopes of SYNC (05 Table OM-9). -/
inductive SyncScope where
  | stack
  | device
  | neighbourhood
deriving DecidableEq, Repr

/-- The two draughts (07 R215): one per world. -/
inductive Draught where
  | g
  | p
deriving DecidableEq, Repr

/-- The kinds of far access (05 Table OM-3). -/
inductive FarKind where
  | ld
  | ldhu
  | st
  | sth
  | add
  | addsH2
  | swap
deriving DecidableEq, Repr

/-- The atomics of the crossbar (14 Table XB-4). -/
inductive AtomOp where
  | add
  | addsH2
  | swap
deriving DecidableEq, Repr

/-- A frame of the Yilsal link (12 Tables YL-4, YL-5): the header fields, the payload words, and the two check
values as they arrived or are sent. `hrt` is the origin hearth, 0x3F another master. `ins` tells a frame that starts with K28.6,
inserted into another, `bad` one that ends with K30.7 (Table YL-1), `ret` a response on its return to the device that gave it (R355;
log entry 36). -/
structure Frame where
  type    : Byte
  tc      : Nat
  det     : Bool
  w       : Bool
  sv      : Bool
  gen     : Nat
  dst     : BitVec 14
  src     : BitVec 14
  hops    : Nat
  lseq    : Nat
  tag     : Nat
  hrt     : Nat
  mod     : Byte
  addr    : Word
  payload : List Word
  hcrc    : BitVec 16
  fcrc    : Word
  ins     : Bool
  bad     : Bool
  ret     : Bool
deriving DecidableEq, Repr

/-- A control word of the link (12 R337): bytes 1 to 6, and the CRC-8 of byte 7. -/
structure CtlWord where
  args : BitVec 48
  crc  : Byte
deriving DecidableEq, Repr

/-- The commands, one per row of the table (the rule of each row in brackets). -/
inductive Instr where
  /-- INSTRUCTION_WORD (R54). -/
  | instructionWord (h : Hid)
  /-- OPERATION_RESULT (R52). -/
  | operationResult (h : Hid)
  /-- ADD (R114). -/
  | add (h : Hid) (u : Fin 2) (t : Word)
  /-- SUB (R114). -/
  | sub (h : Hid) (u : Fin 2) (t : Word)
  /-- RSUB (R114). -/
  | rsub (h : Hid) (u : Fin 2) (t : Word)
  /-- ADDCY (R114). -/
  | addcy (h : Hid) (u : Fin 2) (t : Word)
  /-- SUBBW (R114). -/
  | subbw (h : Hid) (u : Fin 2) (t : Word)
  /-- ADDS (R114). -/
  | adds (h : Hid) (u : Fin 2) (t : Word)
  /-- SUBS (R114). -/
  | subs (h : Hid) (u : Fin 2) (t : Word)
  /-- ADDUS (R114). -/
  | addus (h : Hid) (u : Fin 2) (t : Word)
  /-- SUBUS (R114). -/
  | subus (h : Hid) (u : Fin 2) (t : Word)
  /-- AND (R114). -/
  | and (h : Hid) (u : Fin 2) (t : Word)
  /-- OR (R114). -/
  | or (h : Hid) (u : Fin 2) (t : Word)
  /-- XOR (R114). -/
  | xor (h : Hid) (u : Fin 2) (t : Word)
  /-- ANDN (R114). -/
  | andn (h : Hid) (u : Fin 2) (t : Word)
  /-- NOT (R114). -/
  | not (h : Hid) (u : Fin 2) (t : Word)
  /-- NEG (R115). -/
  | neg (h : Hid) (u : Fin 2) (t : Word)
  /-- NEGS (R115). -/
  | negs (h : Hid) (u : Fin 2) (t : Word)
  /-- ABS (R115). -/
  | abs (h : Hid) (u : Fin 2) (t : Word)
  /-- ABSS (R115). -/
  | abss (h : Hid) (u : Fin 2) (t : Word)
  /-- MIN (R114). -/
  | min (h : Hid) (u : Fin 2) (t : Word)
  /-- MAX (R114). -/
  | max (h : Hid) (u : Fin 2) (t : Word)
  /-- MINU (R114). -/
  | minu (h : Hid) (u : Fin 2) (t : Word)
  /-- MAXU (R114). -/
  | maxu (h : Hid) (u : Fin 2) (t : Word)
  /-- PASS (R114). -/
  | pass (h : Hid) (u : Fin 2) (t : Word)
  /-- ADD_B4 (R114). -/
  | addB4 (h : Hid) (u : Fin 2) (t : Word)
  /-- SUB_B4 (R114). -/
  | subB4 (h : Hid) (u : Fin 2) (t : Word)
  /-- ADDUS_B4 (R116). -/
  | addusB4 (h : Hid) (u : Fin 2) (t : Word)
  /-- SUBUS_B4 (R116). -/
  | subusB4 (h : Hid) (u : Fin 2) (t : Word)
  /-- ADD_H2 (R114). -/
  | addH2 (h : Hid) (u : Fin 2) (t : Word)
  /-- SUB_H2 (R114). -/
  | subH2 (h : Hid) (u : Fin 2) (t : Word)
  /-- ADDS_H2 (R116). -/
  | addsH2 (h : Hid) (u : Fin 2) (t : Word)
  /-- SUBS_H2 (R116). -/
  | subsH2 (h : Hid) (u : Fin 2) (t : Word)
  /-- SHL (R117). -/
  | shl (h : Hid) (t : Word)
  /-- SHR (R117). -/
  | shr (h : Hid) (t : Word)
  /-- SAR (R117). -/
  | sar (h : Hid) (t : Word)
  /-- ROL (R117). -/
  | rol (h : Hid) (t : Word)
  /-- ROR (R117). -/
  | ror (h : Hid) (t : Word)
  /-- SHLS (R118). -/
  | shls (h : Hid) (t : Word)
  /-- SARR (R118). -/
  | sarr (h : Hid) (t : Word)
  /-- SHL_H2 (R117). -/
  | shlH2 (h : Hid) (t : Word)
  /-- SHR_H2 (R117). -/
  | shrH2 (h : Hid) (t : Word)
  /-- SAR_H2 (R117). -/
  | sarH2 (h : Hid) (t : Word)
  /-- SEXT_B (R117). -/
  | sextB (h : Hid) (t : Word)
  /-- SEXT_H (R117). -/
  | sextH (h : Hid) (t : Word)
  /-- ZEXT_B (R117). -/
  | zextB (h : Hid) (t : Word)
  /-- ZEXT_H (R117). -/
  | zextH (h : Hid) (t : Word)
  /-- CLZ (R118). -/
  | clz (h : Hid) (t : Word)
  /-- PACK (R117). -/
  | pack (h : Hid) (t : Word)
  /-- MUL (R122). -/
  | mul (h : Hid) (t : Word)
  /-- MULU (R122). -/
  | mulu (h : Hid) (t : Word)
  /-- MULSU (R122). -/
  | mulsu (h : Hid) (t : Word)
  /-- MUL_H2 (R122). -/
  | mulH2 (h : Hid) (t : Word)
  /-- MULQ_H2 (R124). -/
  | mulqH2 (h : Hid) (t : Word)
  /-- MULQ (R124). -/
  | mulq (h : Hid) (t : Word)
  /-- MAC (R123). -/
  | mac (h : Hid) (t : Word)
  /-- MSU (R123). -/
  | msu (h : Hid) (t : Word)
  /-- MAC_H2 (R123). -/
  | macH2 (h : Hid) (t : Word)
  /-- MSU_H2 (R123). -/
  | msuH2 (h : Hid) (t : Word)
  /-- MACU (R123). -/
  | macu (h : Hid) (t : Word)
  /-- ACCR (R122). -/
  | accr (h : Hid) (t : Word)
  /-- ACCR_H (R124). -/
  | accrH (h : Hid) (t : Word)
  /-- DIV (R127). -/
  | div (h : Hid) (t : Word)
  /-- DIVU (R127). -/
  | divu (h : Hid) (t : Word)
  /-- REM (R127). -/
  | rem (h : Hid) (t : Word)
  /-- REMU (R126). -/
  | remu (h : Hid) (t : Word)
  /-- EQ (R130). -/
  | eq (h : Hid) (t : Word)
  /-- NE (R130). -/
  | ne (h : Hid) (t : Word)
  /-- LT (R130). -/
  | lt (h : Hid) (t : Word)
  /-- LTU (R130). -/
  | ltu (h : Hid) (t : Word)
  /-- LE (R130). -/
  | le (h : Hid) (t : Word)
  /-- LEU (R130). -/
  | leu (h : Hid) (t : Word)
  /-- GT (R130). -/
  | gt (h : Hid) (t : Word)
  /-- GTU (R130). -/
  | gtu (h : Hid) (t : Word)
  /-- GE (R130). -/
  | ge (h : Hid) (t : Word)
  /-- GEU (R130). -/
  | geu (h : Hid) (t : Word)
  /-- TST (R130). -/
  | tst (h : Hid) (t : Word)
  /-- BIT (R130). -/
  | bit (h : Hid) (t : Word)
  /-- LD (R132). -/
  | ld (h : Hid) (u : Fin 2) (t : Word)
  /-- LDH (R132). -/
  | ldh (h : Hid) (u : Fin 2) (t : Word)
  /-- LDHU (R132). -/
  | ldhu (h : Hid) (u : Fin 2) (t : Word)
  /-- LDB (R132). -/
  | ldb (h : Hid) (u : Fin 2) (t : Word)
  /-- LDBU (R132). -/
  | ldbu (h : Hid) (u : Fin 2) (t : Word)
  /-- ST (R134). -/
  | st (h : Hid) (u : Fin 2) (t : Word)
  /-- STH (R134). -/
  | sth (h : Hid) (u : Fin 2) (t : Word)
  /-- STB (R134). -/
  | stb (h : Hid) (u : Fin 2) (t : Word)
  /-- NEAR_STORE_DRAIN (R162). -/
  | nearStoreDrain (h : Hid)
  /-- LD_FAR (R138). -/
  | ldFar (h : Hid) (t : Word)
  /-- LDHU_FAR (R138). -/
  | ldhuFar (h : Hid) (t : Word)
  /-- ST_FAR (R167). -/
  | stFar (h : Hid) (t : Word)
  /-- STH_FAR (R167). -/
  | sthFar (h : Hid) (t : Word)
  /-- ADD_FAR (R140). -/
  | addFar (h : Hid) (t : Word)
  /-- ADDS_H2_FAR (R140). -/
  | addsH2Far (h : Hid) (t : Word)
  /-- SWAP_FAR (R140). -/
  | swapFar (h : Hid) (t : Word)
  /-- FAR_LOAD_COMPLETION (R141). -/
  | farLoadCompletion (h : Hid)
  /-- FAR_STORE_ACK (R167). -/
  | farStoreAck (h : Hid)
  /-- FAR_ACCESS_FAILURE (R143). -/
  | farAccessFailure (h : Hid)
  /-- JMP (R145). -/
  | jmp (h : Hid) (t : Word)
  /-- JMPR (R145). -/
  | jmpr (h : Hid) (t : Word)
  /-- CALL (R145). -/
  | call (h : Hid) (t : Word)
  /-- CALLR (R145). -/
  | callr (h : Hid) (t : Word)
  /-- JTAB (R145). -/
  | jtab (h : Hid) (t : Word)
  /-- LOOP (R91). -/
  | loop (h : Hid) (t : Word)
  /-- BRK (R145). -/
  | brk (h : Hid) (t : Word)
  /-- REP (R99). -/
  | rep (h : Hid) (n : BitVec 16)
  /-- REPEATED_WORD (R102). -/
  | repeatedWord (h : Hid)
  /-- POST (R146). -/
  | post (h : Hid) (t : Word)
  /-- FETCH (R367). -/
  | fetch (h : Hid) (t : Word)
  /-- PEEK (R146). -/
  | peek (h : Hid) (t : Word)
  /-- PSTAT (R369). -/
  | pstat (h : Hid) (t : Word)
  /-- RING (R377). -/
  | ring (h : Hid) (t : Word)
  /-- DBCLR (R146). -/
  | dbclr (h : Hid) (t : Word)
  /-- MBX_ANSWER (R146). -/
  | mbxAnswer (h : Hid)
  /-- TGET (R149). -/
  | tget (h : Hid) (t : Word)
  /-- TARM (R150). -/
  | tarm (h : Hid) (t : Word)
  /-- TCAN (R149). -/
  | tcan (h : Hid) (t : Word)
  /-- TWAIT (R149). -/
  | twait (h : Hid) (t : Word)
  /-- TWAIT_RELEASE (R149). -/
  | twaitRelease (h : Hid)
  /-- ALARM_FIRE (R150). -/
  | alarmFire (h : Hid)
  /-- CSRR (R151). -/
  | csrr (h : Hid) (t : Word)
  /-- CSRW (R151). -/
  | csrw (h : Hid) (t o : Word)
  /-- CSRS (R151). -/
  | csrs (h : Hid) (t o : Word)
  /-- CSRC (R151). -/
  | csrc (h : Hid) (t o : Word)
  /-- CSRX (R151). -/
  | csrx (h : Hid) (t o : Word)
  /-- TRAP (R208). -/
  | trap (h : Hid) (n : BitVec 8)
  /-- GATE (R210). -/
  | gate (h : Hid) (g : BitVec 6)
  /-- RET (R212). -/
  | ret (h : Hid)
  /-- GRET (R212). -/
  | gret (h : Hid)
  /-- HALT (R153). -/
  | halt (h : Hid)
  /-- DEBUG_RESUME (R85). -/
  | debugResume (h : Hid)
  /-- SLEEP (R153). -/
  | sleep (h : Hid) (w : Bool)
  /-- FENCE (R169). -/
  | fence (h : Hid) (scope : FenceScope)
  /-- FENCE_I (R85). -/
  | fenceI (h : Hid)
  /-- COMMIT (R155). -/
  | commit (h : Hid)
  /-- EPWAIT (R154). -/
  | epwait (h : Hid)
  /-- SYNC (R241). -/
  | sync (h : Hid) (scope : SyncScope)
  /-- BARRIER_COMPLETE (R241). -/
  | barrierComplete (ch : Fin 2) (scope : SyncScope) (k : Fin 8)
  /-- ENTRY (R197). -/
  | entry (h : Hid)
  /-- INTERRUPT (R194). -/
  | interrupt (h : Hid)
  /-- HEARTH_FAULT (R192). -/
  | hearthFault (h : Hid)
  /-- ICSET (R193). -/
  | icset (w : Who) (h : Hid) (v : Word)
  /-- DGFEED (R216). -/
  | dgfeed (w : Who) (d : Draught) (v : Word)
  /-- DRAUGHT_WARNING (R216). -/
  | draughtWarning (d : Draught)
  /-- DRAUGHT_EXPIRY (R217). -/
  | draughtExpiry (d : Draught)
  /-- DRAUGHT_RESET (R217). -/
  | draughtReset (d : Draught)
  /-- FK0 (R229). -/
  | fk0 (h : Hid) (t : Word)
  /-- FK1 (R229). -/
  | fk1 (h : Hid) (t : Word)
  /-- FK2 (R229). -/
  | fk2 (h : Hid) (t : Word)
  /-- FK3 (R238). -/
  | fk3 (h : Hid) (t : Word)
  /-- FK4 (R253). -/
  | fk4 (h : Hid) (t : Word)
  /-- FK5 (R264). -/
  | fk5 (h : Hid) (t : Word)
  /-- STEP (R240). -/
  | step (h : Hid) (t : Word)
  /-- RED (R257). -/
  | red (h : Hid) (t : Word)
  /-- LRUN (R266). -/
  | lrun (h : Hid) (t : Word)
  /-- FULLING_COMPLETION (R236). -/
  | fullingCompletion (h : Hid)
  /-- HALO_LANDING (R238). -/
  | haloLanding (h : Hid)
  /-- REDUCTION_COMPLETE (R258). -/
  | reductionComplete (d : Bool) (k : Fin 8)
  /-- FRTO_EXPIRY (R244). -/
  | frtoExpiry (h : Hid)
  /-- TICK_EDGE (R280). -/
  | tickEdge
  /-- FIRST_TICK_EDGE (R519). -/
  | firstTickEdge
  /-- TICK_EDGE_ARRIVAL (R175). -/
  | tickEdgeArrival (k : Fin 8)
  /-- COMMIT_REPORT (R276). -/
  | commitReport (h : Hid)
  /-- SLICE_COPY (R277). -/
  | sliceCopy (h : Hid)
  /-- EPDL (R286). -/
  | epdl
  /-- FDL (R286). -/
  | fdl
  /-- SDL (R288). -/
  | sdl
  /-- SEAL_APPLY (R290). -/
  | sealApply
  /-- MLOST (R292). -/
  | mlost
  /-- TIME_EXCHANGE (R295). -/
  | timeExchange (p : Fin 4)
  /-- FDEM_WRITE (R320). -/
  | fdemWrite (w : Who) (n : Fin 96) (v : Word)
  /-- ECMT_VECTOR (R321). -/
  | ecmtVector
  /-- DAMPER_TICK (R324). -/
  | damperTick
  /-- FIRST_KEY (R307). -/
  | firstKey (w : Who) (v : Word)
  /-- SECOND_KEY (R307). -/
  | secondKey (w : Who) (v : Word)
  /-- KEY_TIMEOUT (R307). -/
  | keyTimeout
  /-- QUENCH_N (R314). -/
  | quenchN
  /-- OUT (R309). -/
  | out (n : Fin 96)
  /-- RAW_CODE (R310). -/
  | rawCode (c : Fin 48)
  /-- CODE_ABSENCE (R310). -/
  | codeAbsence (c : Fin 48)
  /-- PHASE (R311). -/
  | phase (p : Fin 3)
  /-- GROUP (R312). -/
  | group (g : Fin 16)
  /-- GROUP_WINDOW_END (R312). -/
  | groupWindowEnd (g : Fin 16)
  /-- DQSET (R314). -/
  | dqset (w : Who) (k : Fin 3) (v : Word)
  /-- DQCLR (R315). -/
  | dqclr (w : Who) (k : Fin 3) (v : Word)
  /-- DRQTX (R317). -/
  | drqtx (w : Who) (v : Word)
  /-- ZERO_CROSSING (R325). -/
  | zeroCrossing (p : Fin 3)
  /-- PHASE_LOST (R325). -/
  | phaseLost (p : Fin 3)
  /-- HALF_CYCLE_DECISION (R327). -/
  | halfCycleDecision (p : Fin 3)
  /-- PWM_PERIOD (R329). -/
  | pwmPeriod (n : Fin 8)
  /-- CT_HALF_CYCLE (R331). -/
  | ctHalfCycle (c : Fin 12)
  /-- REFERENCE_LOSS (R461). -/
  | referenceLoss
  /-- REFERENCE_RETURN (R461). -/
  | referenceReturn
  /-- LF_LOSS (R461). -/
  | lfLoss
  /-- DETECT (R338). -/
  | detect (p : Fin 4)
  /-- ALIGN (R338). -/
  | align (p : Fin 4)
  /-- LOCK_LOST (R338). -/
  | lockLost (p : Fin 4)
  /-- TRAINING_RETRY (R338). -/
  | trainingRetry (p : Fin 4)
  /-- IDENT (R339). -/
  | ident (p : Fin 4) (c : CtlWord)
  /-- ACK (R351). -/
  | ack (p : Fin 4) (c : CtlWord)
  /-- NAK (R351). -/
  | nak (p : Fin 4) (c : CtlWord)
  /-- CFM (R354). -/
  | cfm (p : Fin 4) (c : CtlWord)
  /-- CRED (R345). -/
  | cred (p : Fin 4) (c : CtlWord)
  /-- TSQ (R295). -/
  | tsq (p : Fin 4) (c : CtlWord)
  /-- TSR1 (R295). -/
  | tsr1 (p : Fin 4) (c : CtlWord)
  /-- TSR2 (R295). -/
  | tsr2 (p : Fin 4) (c : CtlWord)
  /-- DOWN (R338). -/
  | down (p : Fin 4) (c : CtlWord)
  /-- RESEND_TIMER (R351). -/
  | resendTimer (p : Fin 4)
  /-- LINKFAIL (R352). -/
  | linkfail (p : Fin 4)
  /-- CUSTODY_TIMEOUT (R354). -/
  | custodyTimeout (p : Fin 4)
  /-- ACK_RESEND (R354). -/
  | ackResend (p : Fin 4)
  /-- RESPONSE_RESEND (R355). -/
  | responseResend (n : Nat)
  /-- RD (R359). -/
  | rd (p : Fin 4) (f : Frame)
  /-- RDR (R357). -/
  | rdr (p : Fin 4) (f : Frame)
  /-- WR (R359). -/
  | wr (p : Fin 4) (f : Frame)
  /-- WRA (R357). -/
  | wra (p : Fin 4) (f : Frame)
  /-- AT (R359). -/
  | atReq (p : Fin 4) (f : Frame)
  /-- ATR (R357). -/
  | atr (p : Fin 4) (f : Frame)
  /-- MB (R373). -/
  | mb (p : Fin 4) (f : Frame)
  /-- MBR (R372). -/
  | mbr (p : Fin 4) (f : Frame)
  /-- HALO (R243). -/
  | halo (p : Fin 4) (f : Frame)
  /-- HALOA (R238). -/
  | haloa (p : Fin 4) (f : Frame)
  /-- STOK (R241). -/
  | stok (p : Fin 4) (f : Frame)
  /-- ETOK (R285). -/
  | etok (p : Fin 4) (f : Frame)
  /-- EACK (R286). -/
  | eack (p : Fin 4) (f : Frame)
  /-- ESUP (R287). -/
  | esup (p : Fin 4) (f : Frame)
  /-- ESEAL (R290). -/
  | eseal (p : Fin 4) (f : Frame)
  /-- RQ (R361). -/
  | rq (p : Fin 4) (f : Frame)
  /-- RRST (R362). -/
  | rrst (p : Fin 4) (f : Frame)
  /-- FAIL (R357). -/
  | fail (p : Fin 4) (f : Frame)
  /-- TIMEOUT (R357). -/
  | timeout (tag : Nat)
  /-- LINK_RECONFIG (R363). -/
  | linkReconfig
  /-- HUB_POST (R366). -/
  | hubPost (h : Hid)
  /-- WITHDRAWAL (R370). -/
  | withdrawal (m : Fin 128)
  /-- MBXTO_EXPIRY (R372). -/
  | mbxtoExpiry (n : Nat)
  /-- MBCFG_WRITE (R375). -/
  | mbcfgWrite (w : Who) (m : Fin 128) (v : Word)
  /-- MBSGO (R366). -/
  | mbsgo (w : Who) (v : Word)
  /-- MBRING (R377). -/
  | mbring (w : Who) (v : Word)
  /-- HLOCK_READ (R379). -/
  | hlockRead (w : Who) (n : Fin 64)
  /-- HLOCK_WRITE (R379). -/
  | hlockWrite (w : Who) (n : Fin 64) (v : Word)
  /-- MBLKFREE (R381). -/
  | mblkfree (w : Who) (k : Fin 2) (v : Word)
  /-- GRANT (R391). -/
  | grant (t : Fin 19)
  /-- PROMOTION (R392). -/
  | promotion (n : Nat)
  /-- BURST (R390). -/
  | burst (t : Fin 19)
  /-- BIT_SET_ALIAS (R395). -/
  | bitSetAlias (w : Who) (a : Word) (v : Word)
  /-- BIT_CLEAR_ALIAS (R395). -/
  | bitClearAlias (w : Who) (a : Word) (v : Word)
  /-- ATOMIC (R396). -/
  | atomic (w : Who) (op : AtomOp) (a v : Word)
  /-- MASTER_RESET_ABORT (R397). -/
  | masterResetAbort (m : Fin 15)
  /-- ISLAND_POWER_LOSS (R398). -/
  | islandPowerLoss (t : Fin 19)
  /-- SLICE_CHANGE (R394). -/
  | sliceChange (t : Fin 19)
  /-- REMAP (R385). -/
  | remap (w : Who) (v : Word)
  /-- SWIPE (R455). -/
  | swipe (w : Who) (v : Word)
  /-- WIPE_COMPLETE (R401). -/
  | wipeComplete
  /-- GO (R405). -/
  | go (w : Who) (e : Fin 2)
  /-- ABORT (R407). -/
  | abort (w : Who) (e : Fin 2)
  /-- DESCRIPTOR_FETCH (R403). -/
  | descriptorFetch (e : Fin 2)
  /-- EPW_START (R406). -/
  | epwStart (e : Fin 2)
  /-- CHUNK_COMPLETION (R405). -/
  | chunkCompletion (e : Fin 2)
  /-- DESCRIPTOR_DONE (R405). -/
  | descriptorDone (e : Fin 2)
  /-- BELLOWS_ERROR (R407). -/
  | bellowsError (e : Fin 2)
  /-- CONVERSION (R409). -/
  | conversion (c : Fin 48) (code : BitVec 24) (lost : Bool)
  /-- CJ_CONVERSION (R416). -/
  | cjConversion (c : Fin 3) (code : Half) (loop : Bool)
  /-- CT_SAMPLE (R419). -/
  | ctSample (c : Fin 12) (v : BitVec 16)
  /-- SAMPLE_LATCH (R417). -/
  | sampleLatch
  /-- ACH_WRITE (R423). -/
  | achWrite (w : Who) (c : Fin 48) (v : Word)
  /-- RATE_CHANGE (R423). -/
  | rateChange (c : Fin 8)
  /-- START_UP (R425). -/
  | startUp
  /-- STAGING (R441). -/
  | staging (w : Who) (slot : Bool)
  /-- STAGING_ABORT (R441). -/
  | stagingAbort (w : Who)
  /-- STAGING_DONE (R441). -/
  | stagingDone
  /-- ARM (R444). -/
  | arm (w : Who) (fab : Bool)
  /-- DISARM (R448). -/
  | disarm (w : Who)
  /-- REBLOCK_COMMIT (R449). -/
  | reblockCommit (w : Who)
  /-- QSPI_COMMAND (R443). -/
  | qspiCommand (w : Who) (v : Word)
  /-- QSPI_WINDOW_READ (R431). -/
  | qspiWindowRead (w : Who) (a : Word) (n : Fin 256)
  /-- SLCADV (R451). -/
  | slcadv (w : Who) (v : Word)
  /-- SDBGGO (R453). -/
  | sdbggo (w : Who) (v : Word)
  /-- UNLOCK_RESULT (R453). -/
  | unlockResult
  /-- TAMPER (R455). -/
  | tamper (n : Fin 4)
  /-- OP_CHANGE (R464). -/
  | opChange (w : Who) (k : Fin 8) (op : Fin 8)
  /-- REGULATOR_READY (R463). -/
  | regulatorReady
  /-- VFAIL (R465). -/
  | vfail
  /-- CAP (R466). -/
  | cap (k : Fin 8)
  /-- REL (R466). -/
  | rel (k : Fin 8)
  /-- BACK_BIAS (R467). -/
  | backBias
  /-- SLEEP_REQUEST (R470). -/
  | sleepRequest (w : Who) (v : Word)
  /-- WAKE (R472). -/
  | wake (n : Nat)
  /-- WAKEFAIL (R473). -/
  | wakefail (fll : Bool)
  /-- AON_ALARM (R471). -/
  | aonAlarm
  /-- POR (R477). -/
  | por
  /-- BOR (R474). -/
  | bor (vin : Bool)
  /-- BOW (R474). -/
  | bow
  /-- BOW_RECOVERY (R475). -/
  | bowRecovery
  /-- VDD_AFE_LOW (R474). -/
  | vddAfeLow
  /-- VDD_LNK_LOW (R474). -/
  | vddLnkLow
  /-- PIN_RESET (R477). -/
  | pinReset
  /-- SWR (R477). -/
  | swr (w : Who) (v : Word)
  /-- HRST (R479). -/
  | hrst (w : Who) (v : Word)
  /-- DEVICE_RESET (R478). -/
  | deviceReset
  /-- ETH_RECEIVE (R486). -/
  | ethReceive (f : List (BitVec 8))
  /-- ETHTXGO (R486). -/
  | ethtxgo (w : Who)
  /-- PTPSTEP (R487). -/
  | ptpstep (w : Who) (sec : Bool) (v : Word)
  /-- ETHMDIO (R485). -/
  | ethmdio (w : Who) (v : Word)
  /-- USB_BUS_RESET (R490). -/
  | usbBusReset
  /-- BULK_OUT (R489). -/
  | bulkOut (d : List (BitVec 8))
  /-- DFU_DOWNLOAD (R490). -/
  | dfuDownload (alt : Bool) (n : BitVec 16) (d : List (BitVec 8))
  /-- DFU_UPLOAD (R490). -/
  | dfuUpload (alt : Bool) (n : BitVec 16)
  /-- HELLO (R491). -/
  | hello (tcp : Bool) (d : List (BitVec 8))
  /-- AUTH (R493). -/
  | auth (tcp : Bool) (d : List (BitVec 8))
  /-- MREAD (R492). -/
  | mread (tcp : Bool) (d : List (BitVec 8))
  /-- LOGREAD (R492). -/
  | logread (tcp : Bool) (d : List (BitVec 8))
  /-- FREAD (R492). -/
  | fread (tcp : Bool) (d : List (BitVec 8))
  /-- FWRITE (R492). -/
  | fwrite (tcp : Bool) (d : List (BitVec 8))
  /-- STAGE (R492). -/
  | stage (tcp : Bool) (d : List (BitVec 8))
  /-- KSP_REBLOCK (R492). -/
  | kspReblock (tcp : Bool) (d : List (BitVec 8))
  /-- CALREAD (R492). -/
  | calread (tcp : Bool) (d : List (BitVec 8))
  /-- CALWRITE (R494). -/
  | calwrite (tcp : Bool) (d : List (BitVec 8))
  /-- LCADV (R492). -/
  | lcadv (tcp : Bool) (d : List (BitVec 8))
  /-- QCLEAR (R492). -/
  | qclear (tcp : Bool) (d : List (BitVec 8))
  /-- SESSION_TIMEOUT (R491). -/
  | sessionTimeout
  /-- I2CCMD (R495). -/
  | i2ccmd (w : Who) (v : Word)
  /-- I2C_TIMEOUT (R495). -/
  | i2cTimeout
  /-- UART_RECEIVE (R496). -/
  | uartReceive (u : Fin 2) (d : BitVec 8)
  /-- URXD (R496). -/
  | urxd (w : Who) (u : Fin 2)
  /-- UTXD (R496). -/
  | utxd (w : Who) (u : Fin 2) (v : Word)
  /-- GPIO_EVENT (R497). -/
  | gpioEvent (n : Fin 32) (v : Bool)
  /-- IDCODE (R498). -/
  | idcode
  /-- SAMPLE_PRELOAD (R498). -/
  | samplePreload
  /-- EXTEST (R498). -/
  | extest
  /-- DEBUG (R452). -/
  | jtagDebug
  /-- BYPASS (R498). -/
  | bypass
  /-- TAP_RESET (R498). -/
  | tapReset
  /-- RC_READ (R10). -/
  | rcRead (w : Who) (a : Word)
  /-- LATCHING_READ (R482). -/
  | latchingRead (w : Who) (a : Word)
  /-- REGISTER_WRITE (R7). -/
  | registerWrite (w : Who) (a v : Word)
  /-- COMMIT_COMPLETION (R276). -/
  | commitCompletion (h : Hid)
  /-- HUB_FETCH (R368). -/
  | hubFetch (h : Hid)
  /-- HALF_CYCLE_BOUNDARY (R326). -/
  | halfCycleBoundary (p : Fin 3)
  /-- QUENCH_N_HIGH (R314). -/
  | quenchNHigh
  /-- PIN_CAUSE_GONE (R314). -/
  | pinCauseGone
  /-- BOW_CAUSE_GONE (R475). -/
  | bowCauseGone
  /-- TAMPER_INACTIVE (R454). -/
  | tamperInactive (n : Fin 4)
  /-- VDD_AFE_RECOVERY (R474). -/
  | vddAfeRecovery
  /-- LF_RETURN (R461). -/
  | lfReturn
  /-- QSPI_COMMAND_DONE (R443). -/
  | qspiCommandDone (err : Bool)
  /-- I2C_COMMAND_DONE (R495). -/
  | i2cCommandDone (st : Fin 3) (d : List (BitVec 8))
  /-- MDIO_DONE (R485). -/
  | mdioDone (d : BitVec 16)
  /-- ETH_TRANSMIT_DONE (R486). -/
  | ethTransmitDone
  /-- BULK_IN (R489). -/
  | bulkIn (n : Nat)
  /-- STANDARD_REQUEST (R488). -/
  | standardRequest (r : BitVec 8) (v : BitVec 16)
  /-- VBUS_CHANGE (R488). -/
  | vbusChange (v : Bool)
deriving DecidableEq, Repr

end Sys2Proof
end

