-- ==== Sys2Proof/Decode.lean ====
section
/-!
DEFINITION. The command a word spells by the bits of the table of operations and events. No row of the table gives
bits, so no word spells a command (log entry 8).
-/
namespace Sys2Proof

/-- The command whose bits are `w`: none, for any word. -/
def decodeTableWord (_nbits _w : Nat) : Option Instr := none

end Sys2Proof
end

