-- ==== Sys2Proof/Machine/Bits.lean ====
section
/-!
DEFINITION. Bit fields, lanes, sign and byte-order helpers over words (00_scope R4, R17; 04 R113).
-/
namespace Sys2Proof.Machine
open Sys2Proof

/-- A number as a word, modulo 2^32. -/
def w32 (n : Nat) : Word := BitVec.ofNat 32 n

/-- An exact integer as a word: its bits [31:0]. -/
def wOfInt (x : Int) : Word := BitVec.ofInt 32 x

/-- The field of `n` bits at bit `lo`. -/
def fld (w : Word) (lo n : Nat) : Nat := w.toNat / 2 ^ lo % 2 ^ n

/-- `w` with the field of `n` bits at bit `lo` replaced by `v`. -/
def putF (w : Word) (lo n v : Nat) : Word :=
  w32 (w.toNat - fld w lo n * 2 ^ lo + v % 2 ^ n * 2 ^ lo)

/-- A mask of `n` ones at bit `lo`. -/
def ones (lo n : Nat) : Word := w32 ((2 ^ n - 1) * 2 ^ lo)

/-- One bit as a word, at bit `i`. -/
def bitAt (b : Bool) (i : Nat) : Word := if b then w32 (2 ^ i) else 0

/-- One bit of a word. -/
def tb (w : Word) (i : Nat) : Bool := w.getLsbD i

/-- `w` with bit `i` set to `b`. -/
def setBit (w : Word) (i : Nat) (b : Bool) : Word := if b then w ||| w32 (2 ^ i) else w &&& ~~~(w32 (2 ^ i))

/-- The bits of `mask` from `new`, the others from `old`. -/
def blend (old new mask : Word) : Word := (old &&& ~~~mask) ||| (new &&& mask)

/-- Lane `i` of width `w` bits, unsigned (R113). -/
def lane (x : Word) (i w : Nat) : Nat := fld x (i * w) w

/-- A number of `w` bits read as two's complement. -/
def sgn (w x : Nat) : Int := if x < 2 ^ (w - 1) then (x : Int) else (x : Int) - 2 ^ w

/-- Lane `i` of width `w` bits, signed (R113). -/
def slane (x : Word) (i w : Nat) : Int := sgn w (lane x i w)

/-- The bits [w-1:0] of an exact integer. -/
def trunc (w : Nat) (x : Int) : Nat := (x % 2 ^ w).toNat

/-- clamp(x, lo, hi) of R17. -/
def clampI (x lo hi : Int) : Int := if x < lo then lo else if x > hi then hi else x

/-- floor(x / 2^n). -/
def floorShr (x : Int) (n : Nat) : Int := x / 2 ^ n

/-- sext32 of the low 16 bits. -/
def sext16 (n : Nat) : Word := wOfInt (sgn 16 (n % 2 ^ 16))

/-- sext32 of the low 8 bits. -/
def sext8 (n : Nat) : Word := wOfInt (sgn 8 (n % 2 ^ 8))

/-- The bytes of a number, little-endian (R4). -/
def leBytes : Nat → Nat → List Byte
  | 0, _ => []
  | k + 1, n => BitVec.ofNat 8 n :: leBytes k (n / 256)

/-- The number that bytes spell, little-endian (R4). -/
def leNat : List Byte → Nat
  | [] => 0
  | b :: bs => b.toNat + 256 * leNat bs

/-- The bytes of a number, most significant first, as wire formats use them. -/
def beBytes (k n : Nat) : List Byte := (leBytes k n).reverse

/-- The number that bytes spell, most significant first. -/
def beNat (bs : List Byte) : Nat := leNat bs.reverse

/-- Whether `n` is in `lo`..`hi`, both included. -/
def within (lo n hi : Nat) : Bool := decide (lo ≤ n) && decide (n ≤ hi)

/-- A number as a member of `Fin n`, modulo `n`. -/
def fin (n : Nat) [NeZero n] (x : Nat) : Fin n := Fin.ofNat n x

/-- The mode of an encoded HSR.MODE (05, HSR). -/
def modeOf (n : Nat) : Mode :=
  if n % 4 = 0 then .pu else if n % 4 = 1 then .ps else if n % 4 = 2 then .gu else .gs

/-- HSR.MODE of a mode. -/
def modeNo : Mode → Fin 4
  | .pu => 0
  | .ps => 1
  | .gu => 2
  | .gs => 3

/-- Whether a mode belongs to the G world. -/
def isG : Mode → Bool
  | .gu => true
  | .gs => true
  | .pu => false
  | .ps => false

/-- Whether a mode is a supervisor level. -/
def isSup : Mode → Bool
  | .ps => true
  | .gs => true
  | .pu => false
  | .gu => false

/-- The supervisor mode of a mode's world. -/
def supOf (m : Mode) : Mode := if isG m then .gs else .ps

/-- A mode is a supervisor of the P or of the G world, or GS alone. -/
def isGS (m : Mode) : Bool := m == .gs

end Sys2Proof.Machine
end

