-- ==== Sys2Proof/Config.lean ====
section
/-!
DEFINITION. What an implementation fixes, and the values the spec leaves open. Each is a constant without a
body, so a claim holds whatever it is. Which log entry names it is said at each.
-/
namespace Sys2Proof

/-- The two steppings of the part (00_scope R1). -/
inductive Stepping where
  | a1
  | b0
deriving DecidableEq, Repr, Inhabited

/-- The stepping of this device: every statement holds for both (R2). -/
opaque Config.stepping : Stepping

/-- A free word: the value the spec leaves open at the n-th place where one is needed (log entry 2). -/
opaque Config.freeWord : Nat → Word

/-- A free number, for an open choice among several (log entry 2). -/
opaque Config.freeNat : Nat → Nat

/-- The contents of the boot ROM (14_memory_crossbar, Table XB-1), which the spec does not give (log entry 3). -/
opaque Config.bootRom : Nat → Byte

/-- The size of the QSPI flash in bytes, whether it shows a valid SFDP signature, and which read modes it supports, in
the order of 16 R428: 0 is 1-4-4, 3 is 1-1-2 (log entry 5). -/
opaque Config.flashBytes : Nat
opaque Config.sfdpOk : Bool
opaque Config.flashModes : Fin 4 → Bool

/-- Whether the n-th reading of a slot meets a flash timeout or a controller error, and at which byte of the slot (16 Table PA-5, code
0x0D; log entry 5). -/
opaque Config.flashFail : Nat → Option Nat

/-- How many bytes an opcode of the flash erases (0: it erases none), and whether it programs: known from SFDP
(16 R443; log entry 5). -/
opaque Config.flashErase : Byte → Nat
opaque Config.flashProgram : Byte → Bool

/-- VOUT_MODE of the core regulator (17 R463; log entry 41). -/
opaque Config.voutMode : Byte

/-- The device identity in fuses, words 0 and 1, and the key hash of an OTP slot 0 to 3 (16 R434, R458; log entry 4). -/
opaque Config.suid : Nat → Word
opaque Config.otpKey : Nat → List Byte

end Sys2Proof
end

