-- ==== Sys2Proof/Machine/State.lean ====
section
/-!
DEFINITION. The state of the BX4810: everything the spec gives the part, as plain data, the queue of waiting
commands, and the state right after a power-on reset (INVENTORY.md, State, names the rule of each).
-/
namespace Sys2Proof.Machine
open Sys2Proof

/-- Why a command stops the machine: no command of this block does, so there is no reason. Safe. -/
inductive Fault where
deriving DecidableEq, Repr

/-- Why a command has no meaning here. -/
inductive Refusal where
  /-- Raised by the arms of `exec` of commands without a meaning in this model. Safe. -/
  | notModelled (mnemonic : String)
deriving DecidableEq, Repr

/-- Whether a hearth issues words: held in reset, running, halted by HALT or debug, or halted by a hearth fault
(05 R153, 07 R192, 17 R479). -/
inductive RunState where
  | held
  | running
  | halted
  | faulted
deriving DecidableEq, Repr

/-- The function units whose operations are in flight in the hearth (03, 04, 05). -/
inductive FUnit where
  | alu0
  | alu1
  | shf
  | mul
  | div
  | pred
  | lsu0
  | lsu1
  | ctl
  | tmr
  | sys
deriving DecidableEq, Repr

/-- The operations that read or update ACC in their final stage (04 R120). -/
inductive AccOp where
  | mac
  | msu
  | macH2
  | msuH2
  | macu
  | accr
  | accrH
deriving DecidableEq, Repr

/-- What an operation in flight delivers: one result socket, the two of MUL or DIV, or an accumulator operation
that is computed in its final stage (04 R107, R120); `idle` is a SYS write, which delivers nothing. Sockets are numbered as in Table HT-6 from 0x28. -/
inductive FlightKind where
  | one (sock : Fin 15) (v : Word)
  | two (s1 s2 : Fin 15) (v1 v2 : Word)
  | acc (op : AccOp) (t o : Word)
  | idle
deriving DecidableEq, Repr

/-- An operation in flight: visible from issue cycle `due`, with its sticky bits (04 R110). `nom` is t + L (03 R52), which
`due` precedes by the steps the divider took while it held a word (04 R128). -/
structure Flight where
  unit : FUnit
  due  : Nat
  nom  : Nat
  kind : FlightKind
  sov  : Bool
  dov  : Bool
  dvz  : Bool
deriving DecidableEq, Repr

/-- An entry of the near store buffer (06 R162): local word address, data, byte mask, the mode of its word (R152),
and the memory cell its window showed when it was stored. -/
structure SbEntry where
  addr : Nat
  key  : Nat
  data : Word
  mask : BitVec 4
  mode : Mode
deriving DecidableEq, Repr

/-- Where a far load or atomic delivers (05 R138, R141). -/
inductive FarDest where
  | reg (r : Fin 31)
  | sp (m : Mode)
  | lsu1
  | nowhere
deriving DecidableEq, Repr

/-- How far a far access has come: waiting at its bus or link, answered with data, acknowledged or failed. -/
inductive FarStatus where
  | waiting
  | answered (v : Word)
  | failed (cause : Byte)
deriving DecidableEq, Repr

/-- A far access outstanding (05 R138; 06 R170). `tag` is the link tag of a remote one. -/
structure FarOp where
  id     : Nat
  kind   : FarKind
  node   : BitVec 14
  addr   : Word
  data   : Word
  dest   : FarDest
  mode   : Mode
  tag    : Option Nat
  status : FarStatus
deriving DecidableEq, Repr

/-- The operations of the MBX unit (05 Table OM-5). -/
inductive MbxKind where
  | post
  | fetch
  | peek
  | pstat
  | ring
  | dbclr
deriving DecidableEq, Repr

/-- The MBX operation in progress: T, O, the mode, the bytes read at trigger (05 R147) and the hub's answer. -/
structure MbxReq where
  kind   : MbxKind
  t      : Word
  o      : Word
  mode   : Mode
  bytes  : List Byte
  answer : Option Word
deriving DecidableEq, Repr

/-- The waits of a hearth (05 R155). A twait keeps its target and the epoch in which its hold began (R149). -/
inductive Wait where
  | none
  | sleep (w : Bool)
  | epwait
  | sync (scope : SyncScope)
  | twait (t : Word) (epoch : Nat)
  | commit
deriving DecidableEq, Repr

/-- What kind of entry is asked for (07 Table WG-2). -/
inductive EntryKind where
  | fault (level : Nat)
  | far
  | trap
  | gate (entry : BitVec 15) (tmode : Mode) (sp : Word)
  | line (k : Fin 32)
deriving DecidableEq, Repr

/-- An entry waiting to be performed: its cause and the state to be saved (07 Table WG-9). -/
structure EntryReq where
  kind   : EntryKind
  cause  : Byte
  info   : Byte
  pc     : BitVec 15
  pbrV   : Bool
  pbrRem : BitVec 2
  ds     : Bool
deriving DecidableEq, Repr

/-- The kinds of fulling request (08 Table FE-7, 09 R257, R266). -/
inductive FulKind where
  | run (k : Nat)
  | step (k : Nat)
  | red
  | lrun
deriving DecidableEq, Repr

/-- A fulling request (08 R236): its range, the copies an FK5 request takes at its trigger (09 R263), the phase it
has reached, the number of a reduction request of its hearth (09 R258), the next push entry, the lanes an FK4 holds for its write-back or a reduction has read (09 R255, R261), the halo entries not yet landed on this device and on others, whether a remote wait was
given up (08 R244), and its outcome. -/
structure FulReq where
  id      : Nat
  kind    : FulKind
  nr      : Bool
  first   : Nat
  count   : Nat
  scope   : Nat
  fad     : List Word
  fav     : List Word
  fags    : Word
  faw     : Word
  faoe    : Word
  xu      : Bool
  phase   : Nat
  mat     : List Host.Cell
  map     : Nat × Nat
  num     : Nat
  next    : Nat
  lanes   : List Int
  halo    : Nat
  remote  : Nat
  lost    : Bool
  status  : Byte
  bad     : Bool
  clamp   : Bool
  band    : Bool
  started : Bool
  done    : Bool
deriving DecidableEq, Repr

/-- An entry of the branch target buffer (03 R82): the word that caused a transfer or loop-back, its target, and the
instruction words from the target on. -/
structure BtbEntry where
  src   : Nat
  tgt   : Nat
  words : List IWord
deriving DecidableEq, Repr

/-- What the crown holds (03 R83): the index of its first word, and the words, of which the last has index
`first + words.length - 1`. -/
structure Crown where
  first : Nat
  words : List IWord
deriving DecidableEq, Repr

/-- A write to a word of a felt bank on port A or port B (08 R246): when, in the model's clock and the hearth's own, at which
bank offset, and its bytes. -/
structure PortWr where
  b    : Bool
  now  : Nat
  clk  : Nat
  off  : Nat
  mask : BitVec 4
deriving DecidableEq, Repr

/-- One hearth (03 to 09). `loads` are the bodies that the crown is loading in their first iteration (03 R83), `btbOut` the words
a BTB entry supplies after the last transfer, `pbrKeep` whether a transfer that an entry saved was a call, by the saved PC and
target (03 R97), `mlHeld` that ML or ICGML was written by a SYS command of this issue cycle (07 R195), `cmtPend` that the
acceptance of a COMMIT has not come back (05 R155). `redN` counts its reduction requests and `redOld` holds
those dropped before their round, without lanes if these were not yet read (09 R258, R259), `arr0` its arrival at a barrier of SYNC, `arrLost` that it gave up the remote part of it, `frinGot` the remote halo entries received in this substep, `resume` that a reblock has taken place while it was parked (16 R446). `twHold` is the epoch in which the hold of a word with a twait began (05 R149). `sbNew` and `accNew` are the near stores and the MUL.a write of the current issue cycle,
which take effect at its end (06 R162, 04 R121). Socket numbers count from id 0x28. `cr` holds the control registers that are plain
words, by offset; the others are the named fields. -/
structure Hearth where
  run      : RunState
  mode     : Mode
  ml       : BitVec 3
  sov      : Bool
  dov      : Bool
  dvz      : Bool
  fap      : Bool
  fapCause : Byte
  pc       : BitVec 15
  g        : Vector Word 31
  sp       : Vector Word 4
  p        : BitVec 8
  op       : Vector Word 13
  rs       : Vector Word 15
  acc      : BitVec 48
  flights  : List Flight
  sb       : List SbEntry
  sbNew    : List SbEntry
  accNew   : Option Word
  far      : List FarOp
  mbx      : Option MbxReq
  ic       : Nat
  clk      : Nat
  cych     : Word
  stallc   : Word
  waitc    : Word
  pbrTgt   : BitVec 15
  pbrRem   : BitVec 2
  pbrV     : Bool
  pbrCall  : Bool
  lps      : Word
  lpe      : Word
  lpc      : Word
  lpa      : Word
  repc     : Word
  rep      : Option IWord
  wait     : Wait
  twHold   : Option Nat
  entry    : Option EntryReq
  crown    : Option Crown
  loads    : List (Nat × Nat)
  btb      : List BtbEntry
  btbOut   : List (Nat × IWord)
  pbrKeep  : List (BitVec 15 × BitVec 15 × Bool)
  mlDec    : BitVec 3
  gmlDec   : BitVec 3
  mlHeld   : Bool
  icpend   : Word
  nmi30    : Bool
  nmi31    : Bool
  wfp      : Bool
  wfg      : Bool
  gsh      : Bool
  line     : BitVec 5
  lv       : Bool
  armed    : Bool
  doorbell : BitVec 64
  pstat    : List (Nat × Nat × Byte)
  report   : Option Nat
  cmtPend  : Bool
  cmtEdge  : Bool
  ful      : List FulReq
  fulPend  : Bool
  fulAbort : Bool
  fnsLate  : List (Nat × Word)
  portW    : List PortWr
  redN     : Nat
  redOld   : List FulReq
  arr0     : Option SyncScope
  arrLost  : Bool
  frinGot  : Nat
  resume   : Bool
  cr       : List (Nat × Word)
deriving DecidableEq, Repr

/-- A line of a stack's patch buffer (06 R181): the line's index in the active bank, its 48 bytes and the
visibility mask. -/
structure PatchLine where
  line : Nat
  data : List Byte
  mask : BitVec 8
deriving DecidableEq, Repr

/-- One stack (03, 06 R175, R177, R181; 16 R446): its patch buffer, the epoch number and the edge instant that have reached
it, the latency class in force there, and whether the selectors of a reblock are on their way to it. -/
structure Stack where
  patch : List PatchLine
  epoch : Nat
  edge  : Nat
  lc    : BitVec 2
  due   : Bool
deriving DecidableEq, Repr

/-- The frames of a slice (10 R272): those of pages C, C - 1 and C - 2, of the sealed pages S and S', and the
fill frame. -/
structure SliceMap where
  c    : Option (Fin 3)
  c1   : Option (Fin 3)
  c2   : Option (Fin 3)
  s    : Option (Fin 3)
  s1   : Option (Fin 3)
  fill : Option (Fin 3)
deriving DecidableEq, Repr

/-- An entry of a stale list (10 R286, Table MN-6 ESTL): a node, unheard (S) or late (L). -/
structure StaleEnt where
  node : BitVec 14
  s    : Bool
  l    : Bool
deriving DecidableEq, Repr

/-- A seal: the epoch it seals, its stale list and OVF (10 R288). -/
structure Seal where
  epoch : Nat
  list  : List StaleEnt
  ovf   : Bool
deriving DecidableEq, Repr

/-- What the controller still has to settle about an epoch (10 R286 to R288): its tick edge, FDL and SDL from it in
ns, the tree in force in it, its own decision (true COMPLETE), the child ports heard, the entries and OVF, and whether
the combined ack was sent, FDL has passed and it was sealed here. -/
structure EpDec where
  epoch   : Nat
  edge    : Nat
  fdl     : Nat
  sdl     : Nat
  tree    : Word
  own     : Option Bool
  acked   : List (Fin 4)
  ents    : List StaleEnt
  ovf     : Bool
  ackSent : Bool
  fdlGone : Bool
  sealed  : Bool
deriving DecidableEq, Repr

/-- The epoch controller (10): the current epoch, its tick edge, and P, EPDL (us), FDL, SDL (ns), tree and participants in force; the frames of each
slice and the numbers of pages C, C - 1, C - 2, S and S'; the gate; held and last seal; copies queued; the reports on time and the
participants late in the last epoch; the last two epochs not settled; the token last received, whole epochs without one, whether one came in this epoch,
a number to take; the state of disciplined time: LOCK with its count, the slew in units of PTPADJ and its remainder, a step to come. Times are in ns
of disciplined time. -/
structure Ep where
  started  : Bool
  cur      : Nat
  edge     : Nat
  per      : Nat
  edl      : Nat
  fdl      : Nat
  sdl      : Nat
  tree     : Word
  part     : BitVec 64
  maps     : Vector SliceMap 64
  pgC      : Option Nat
  pgC1     : Option Nat
  pgC2     : Option Nat
  pgS      : Option Nat
  pgS1     : Option Nat
  staleS   : Bool
  staleS1  : Bool
  gate     : Bool
  epdlGone : Bool
  heldSeal : Option Seal
  lastSeal : Option Seal
  copies   : List (Hid × Nat)
  atLim    : Bool
  ecmt     : BitVec 64
  elate    : BitVec 64
  dpart    : Bool
  dec      : List EpDec
  token    : Option (Nat × Nat)
  noToken  : Nat
  heard    : Bool
  resync   : Option Nat
  mlost    : Bool
  lock     : Bool
  lockN    : Nat
  rate     : Int
  rateAcc  : Int
  step     : Option Int
deriving DecidableEq, Repr

/-- Who posted a message (13 R364): a hearth, a staging buffer, or a node of the fabric. -/
inductive Sender where
  | hearth (h : Hid)
  | staging (k : Fin 5)
  | node (n : BitVec 14)
deriving DecidableEq, Repr

/-- A message in a slot (13 R364): the number of its post, its bytes, its sender and when it was posted. -/
structure Msg where
  id     : Nat
  bytes  : List Byte
  sender : Sender
  posted : Nat
deriving DecidableEq, Repr

/-- An outbound remote post (13 R372): its mailbox, sender, mode and bytes, and its link tag once it has one. -/
structure OutPost where
  id     : Nat
  box    : Nat
  sender : Sender
  mode   : Mode
  bytes  : List Byte
  posted : Nat
  tag    : Option Nat
deriving DecidableEq, Repr

/-- The mailbox hub and the hob locks (13). A lock holds the id of its owner (Table MB-4); `stg` is the number of each
staging buffer's last post. -/
structure Hub where
  boxes : Vector (List Msg) 128
  outs  : List OutPost
  locks : Vector (Option Nat) 64
  stg   : Vector Nat 5
deriving DecidableEq, Repr

/-- Who holds or waits for a link tag (06 R172): a far access, an outbound post, a bellows chunk, a halo push. -/
inductive TagUser where
  | far (h : Hid) (id : Nat)
  | post (id : Nat)
  | bel (e : Fin 2) (id : Nat)
  | halo (h : Hid) (id : Nat)
deriving DecidableEq, Repr

/-- A control word as it is sent (12 R337, Table YL-2): its CTYPE, its argument bytes and its CRC-8. -/
structure CtlOut where
  ctype : Nat
  args  : BitVec 48
  crc   : Byte
deriving DecidableEq, Repr

/-- A frame in the replay buffer: when it was last sent, and how often it was resent (12 R349, R351). -/
structure Sent where
  frame : Frame
  last  : Nat
  again : Nat
deriving DecidableEq, Repr

/-- A WR or AT frame held for its CFM: when it was first acknowledged, and when last (12 R354). `free` tells a frame that waits only for
one before it (05 R142). -/
structure HeldFrame where
  frame : Frame
  acked : Nat
  last  : Nat
  free  : Bool
deriving DecidableEq, Repr

/-- A frame that waits to be sent: the port it arrived on, and the arguments of the CRED that goes back there as it leaves, 0 for none
(12 R341, R345). -/
structure QItem where
  frame : Frame
  arr   : Option (Fin 4)
  cred  : Nat
deriving DecidableEq, Repr

/-- A Yilsal port (12): its state and WHY, when training began, the sequence numbers, the frames sent and not acknowledged, the WR and AT frames held for their CFM, the numbers already confirmed, the frames waiting to be sent,
the credits of classes 1 to 3 and of their detour pools, the agreeing IDENT words and the last one, the
timestamps of an exchange, and the control words sent. `train` is when training began, `hold` when it may begin again (R338); `busy` and `ins`
are when the line, and an inserted frame, will have been sent, `outer` tells that the frame on the line is of another class than 0 (R346);
`cut` are the forwarded copies that ended with K30.7 (R344). -/
structure Port where
  state  : Nat
  why    : Nat
  since  : Nat
  train  : Nat
  hold   : Nat
  tx     : Nat
  rx     : Nat
  replay : List Sent
  held   : List HeldFrame
  cfmd   : List Nat
  queue  : List QItem
  busy   : Nat
  ins    : Nat
  outer  : Bool
  cut    : List Frame
  cred   : Vector Nat 3
  dcred  : Vector Nat 3
  identN : Nat
  ident  : Option CtlWord
  stamps : List Nat
  ctlOut : List CtlOut
deriving DecidableEq, Repr

/-- The link engine (12): the ports, the tags in use with their users and since when, their generations, the waiters for tags and since when, responses to be
sent again with the instant of the last try, the last 32 quench pairs received and the number of the next quench sent. -/
structure Link where
  ports : Vector Port 4
  tags  : List (Nat × TagUser × Nat)
  gens  : List (Nat × Nat)
  wait  : List (TagUser × Nat)
  resp  : List (Frame × Nat)
  rqs   : List (Nat × Nat)
  rqSeq : Nat
deriving DecidableEq, Repr

/-- A halo entry on its way inside the device (08 R238, R239): the hearth and request that pushed it, where it lands, and the
cycle in which it is ready for its bank. -/
structure HaloItem where
  src   : Hid
  req   : Nat
  dst   : Hid
  hslot : Nat
  data  : List Nat
  due   : Nat
deriving DecidableEq, Repr

/-- A barrier token of a neighbour device (08 R243): its node, its barrier (0 of SYNC, 1 barrier A, 2 barrier B), and the tag it
carries. -/
structure StepTok where
  node  : BitVec 14
  bar   : Nat
  epoch : Nat
  count : Nat
deriving DecidableEq, Repr

/-- What the fulling units share: entries under way, tokens received, those no longer waited for (R244), the barriers under way
whose tokens have been sent, with the instant, and the count of neighbourhood barriers of SYNC (08 R239, R241, R243). -/
structure Felt where
  items : List HaloItem
  toks  : List StepTok
  gone  : List StepTok
  sent  : List (Nat × Nat)
  cnt0  : Nat
deriving DecidableEq, Repr

/-- A transaction of the crossbar (14 R388): a read of bytes, a write of bytes, a write over `n` bytes whose strobes are not contiguous
within a beat, or an atomic of Table XB-4. -/
inductive XOp where
  | read (n : Nat)
  | write (bs : List Byte)
  | gaps (n : Nat)
  | atomic (op : FarKind) (v : Word)
deriving DecidableEq, Repr

/-- Who waits for the end of a transaction: a far access of a hearth, a chunk of a bellows engine, a remote request
that the link engine performs (12 R359), or the master of a register command that had to wait (R26, R181). -/
inductive XFrom where
  | far (h : Hid) (id : Nat)
  | bel (e : Fin 2) (id : Nat)
  | link (f : Frame)
  | cmd
deriving DecidableEq, Repr

/-- A request at a crossbar target (14 R391): when it was issued, whether it was promoted (R392), the mapping of
the low alias in force at its issue (R385), and for a granted burst of a mantel view what it reads under the map in
force at the grant: a frame and its bytes, or nothing where the page was not held (10 R282). -/
structure XReq where
  id       : Nat
  who      : Who
  target   : Fin 19
  addr     : Nat
  op       : XOp
  issued   : Nat
  promoted : Bool
  ram      : Bool
  origin   : XFrom
  snap     : Option (Option (Fin 3 × List Byte))
deriving DecidableEq, Repr

/-- The crossbar (14): the waiting requests, the burst each target holds, the register slices in force (R394),
whether the boot sequencer has released the hearths (R393), the targets whose island has lost power (R398), and what the last
register access of a command was answered: the KIND of its bus error or 0, and the bytes read. -/
structure Xbar where
  reqs     : List XReq
  busy     : Vector (Option XReq) 19
  slices   : BitVec 19
  released : Bool
  off      : BitVec 19
  ans      : Nat × List Byte
deriving DecidableEq, Repr

/-- A chunk of a bellows transfer (14 R405): where it lies in the descriptor, the data read, the words an atomic
sequence still has to apply, the tag it holds, and the answer that has arrived: data, or why it failed. -/
structure Chunk where
  id     : Nat
  off    : Nat
  len    : Nat
  reads  : Bool
  data   : List Byte
  tag    : Option Nat
  answer : Option (Option (List Byte) × Nat)
deriving DecidableEq, Repr

/-- What a bellows engine does: nothing, fetching a descriptor, waiting for a tick edge, due since that edge (R406), or
running one. -/
inductive BelPhase where
  | idle
  | fetch
  | epw
  | due
  | run
deriving DecidableEq, Repr

/-- A bellows engine (14 R403 to R407): its descriptor, the bytes for which chunks were issued, the chunks in flight,
and the first failure. -/
structure Bel where
  phase  : BelPhase
  desc   : List Word
  issued : Nat
  chunks : List Chunk
  err    : Nat
deriving DecidableEq, Repr

/-- An output (11): the window its pad is on in (since, and until if planned), when the
pad last turned off, whether it last turned on before MINOFF had passed, the on-times that ended within the last second, since when its PWM enable is on or
off, the latched causes, the bits latched in a damper cycle and that cycle (R316), the age and whether AGE holds, the draft and live demand, the accumulator, whether it fires in
the half-cycle last decided and in the one before, the firings of this frame and of the last complete one, and when a
clear last left its mask zero. Instants are of the damper's time (`Damper.clk`). -/
structure Outp where
  win   : Option (Nat × Option Nat)
  offAt : Nat
  early : Bool
  hist  : List (Nat × Nat)
  en    : Option Nat
  enOff : Nat
  mask  : BitVec 16
  lat   : Nat × BitVec 16
  aged  : Bool
  age   : Nat
  draft : BitVec 16
  live  : BitVec 16
  e     : Int
  fire  : Bool
  prev  : Bool
  cnt   : Nat
  dlv   : Nat
  clr   : Option Nat
deriving DecidableEq, Repr

/-- A phase (11 R325, R326): the last accepted edges, newest first, whether it runs or is lost, the predicted crossing
of the half-cycle decided, its next timed point (0 none, 1 Zk - LEAD, 2 Zk + PDLY, 3 the end of the pulse), the release of
level pads due after a loss, the half-cycles decided in this frame, and since when its load exceeds ILIM. -/
structure PhaseSt where
  edges : List Nat
  run   : Bool
  lost  : Bool
  zk    : Nat
  stage : Nat
  rel   : Option Nat
  frame : Nat
  ovl   : Option Nat
deriving DecidableEq, Repr

/-- A CT channel (11 R331): the samples of the half-cycle and the sum of their squares, the half-cycles each condition
has held in a row, those without stuck-on and overcurrent, and whether it quenches. -/
structure CtSt where
  n      : Nat
  sq     : Nat
  part   : Nat
  stuck  : Nat
  ovl    : Nat
  absent : Nat
  act    : Bool
deriving DecidableEq, Repr

/-- An ECMT vector on its way to the damper: the bits, whether the flip swapped the block, and P in ns (11 R321, R324). -/
structure Vec where
  ecmt : BitVec 64
  swap : Bool
  per  : Nat
deriving DecidableEq, Repr

/-- The damper and the firing scheduler (11). `clk` is the time the island has counted, in ns of its 40 ns cycles, up to the instant
`mark`, and `rate` the rate of its backup oscillator in kHz (R313). `born` is when the island left reset, `base` up to when pad energy is in
`en` (units of 0.1 A x V x ns), `gwin` the starts of the group windows; then the conditions active by group, phase and
channel, the last code of each channel; QUENCH_N low, its cause and when it rose; VDD_IO low, its cause and when it
recovered; whether DRAUGHT, SLEEP and TAMPER are active; the backup oscillator; the vector under way, when the last one came with its P, the ticks counted since; and a pending first key. -/
structure Damper where
  out   : Vector Outp 96
  ph    : Vector PhaseSt 3
  ct    : Vector CtSt 12
  born  : Nat
  base  : Nat
  en    : Vector Nat 16
  gwin  : Vector Nat 16
  grp   : BitVec 16
  phAct : BitVec 3
  ch    : BitVec 48
  good  : BitVec 48
  chAt  : Vector Int 48
  clk   : Nat
  mark  : Nat
  rate  : Nat
  pin   : Bool
  pinAct : Bool
  pinAt : Nat
  bow   : Bool
  bowAct : Bool
  bowAt : Nat
  drt   : Bool
  slp   : Bool
  tamp  : Bool
  bk    : Bool
  vec   : Option Vec
  last  : Option (Nat × Nat)
  ticks : Nat
  key   : Option (Hid × Nat)
deriving DecidableEq, Repr

/-- A sensor channel (15): the setting in force, whether the next conversion settles and is discarded, a write of its
register not in force yet, and its last completed conversion: V, instant, VAL, OVR; then OPEN, and the conversions in
a row that contradict it. -/
structure AfeCh where
  cfg    : Word
  skip   : Bool
  wr     : Option Nat
  v      : Bool
  last   : Nat
  val    : BitVec 24
  ovr    : Bool
  isOpen : Bool
  run    : Nat
deriving DecidableEq, Repr

/-- A source of the cold-junction block (15 R416). -/
structure AfeCj where
  v      : Bool
  last   : Nat
  code   : BitVec 16
  isOpen : Bool
deriving DecidableEq, Repr

/-- The measurement front end (15): the channels, CJD, CJC0 and CJC1, the rate in force of each converter, ASPCUR, whether the tick edge
of the current epoch has still to reach it (R417), CALBAD,
whether conversions are stopped, and the raw codes on their way to the damper. -/
structure Afe where
  ch   : Vector AfeCh 48
  cj   : Vector AfeCj 3
  rate : Vector Nat 8
  page : Bool
  edge : Bool
  bad  : Bool
  off  : Bool
  sent : List (Fin 48 × BitVec 24)
deriving DecidableEq, Repr

/-- A draught (07 R215 to R217): when its count was loaded and with how many us, whether 0x3C was written, the last
completed reload, when it expired, whether it warned since the load, and the ns it had counted when a sleep state held it. -/
structure Dgt where
  load   : Nat
  tout   : Nat
  key    : Bool
  prev   : Option Nat
  exp    : Option Nat
  warned : Bool
  hold   : Option Nat
deriving DecidableEq, Repr

/-- A change of operating point that waits for the regulator (17 R464): the stack, the point, the target of VDD_IN
before, and since when. -/
structure OpChg where
  stack : Fin 8
  op    : Nat
  vin   : Nat
  since : Nat
deriving DecidableEq, Repr

/-- Power, clocks and resets (17): the device state (Table PW-5), whether start-up has ended, Hold, the instant a reset
began that still holds, a sleep request (state, islands that accepted, since when the next is asked), the wake sources that came since that request
with their instants (R471), the change waiting and those queued, caps with the instants they began, the readings of the junction sensors and when they were sampled
(R466), VOUT_MODE as the regulator reported it, the target of VDD_IN in mV; residency in ns by stack and point, always-on counts in 10^-9 parts of
a cycle, total and by state, counted up to `mark`; the reference and the always-on crystal present; VDD_AFE
low; the always-on count at entry to Ember; a reset that a write to PWSWR asked for, by its bit of RSTCAUSE. -/
structure Pw where
  st     : Nat
  booted : Bool
  hold   : Bool
  rst    : Option Nat
  sleep  : Option (Nat × Nat × Nat)
  edges  : List (Nat × Nat)
  chg    : Option OpChg
  queue  : List (Fin 8 × Nat)
  cap    : BitVec 8
  capAt  : Vector Nat 8
  tj     : Vector Byte 8
  tjAt   : Nat
  vmode  : Byte
  vin    : Nat
  res    : Vector Nat 48
  anow   : Nat
  ares   : Vector Nat 4
  mark   : Nat
  ref    : Bool
  lf     : Bool
  afeLow : Bool
  entry  : Nat
  ask    : Option Nat
deriving DecidableEq, Repr

/-- Life cycle, debug and tamper (16 R451 to R455): the life-cycle state and the key slots revoked (fuses), a first
write to SLCADV (its master, value, instant), the challenge, the debug unlock, its failures and a verification under way, a wipe since when, the tamper sources active. -/
structure Sec where
  cycle  : Nat
  rev    : BitVec 4
  adv    : Option (Who × Word × Nat)
  chal   : Vector Word 4
  unlk   : Bool
  lockd  : Bool
  fails  : Nat
  busy   : Bool
  wipe   : Option Nat
  tamper : BitVec 4
deriving DecidableEq, Repr

/-- Staging, QSPI and reblock (16): the slot being staged, STAGED, the slots booted, of the active block and of the
shadow, the latency class of the shadow (0: its header was refused), the stacks that have a PROG section in each, the epoch E
of an arm, the flash command under way. -/
structure Pat where
  stage  : Option Bool
  staged : Bool
  bslot  : Bool
  aslot  : Bool
  sslot  : Bool
  slc    : Nat
  aprog  : BitVec 8
  sprog  : BitVec 8
  armE   : Nat
  qcmd   : Option Word
deriving DecidableEq, Repr

/-- The host and service ports (18): Ethernet ring positions, whether a bus error stopped the rings, whether the transmit
ring is being sent, MDIO busy; the IEEE 1588 clock in 2^-32 ns with the instant it was counted to and a step to come; USB
configured and VBUS, DFU state and status; the KSP session (over TCP or USB) with its last request, its nonce, its
authorisation, a STAGE not yet answered; what left the ports: its kind, a status, its bytes; I2C0 busy and status; the UART FIFOs, and
when the byte being sent began; GPIO inputs; the JTAG instruction. -/
structure HostSt where
  rxAt  : Nat
  txAt  : Nat
  stop  : Bool
  txGo  : Bool
  mdio  : Bool
  ptp   : Int
  ptpAt : Nat
  ptpUp : Int
  conf  : Bool
  vbus  : Bool
  dfu   : Nat
  dfuSt : Nat
  ksp   : Option (Bool × Nat)
  nonce : List Byte
  auth  : Bool
  kstg  : Bool
  out   : List (Nat × Nat × List Byte)
  i2c   : Option (Word × Nat)
  i2cSt : Nat
  urx   : Vector (List Byte) 2
  utx   : Vector (List Byte) 2
  utxAt : Vector Nat 2
  gpin  : Word
  ir    : Byte
deriving DecidableEq, Repr

/-- The whole machine. `mem` holds every store of the part in one list of cells in canonical form; `regs` holds
the registers of the system blocks that are plain words, by global address, in the same form; `lc` is the latency class of the active
block. `bank`, `blksel`, `dset` and `mtab` are the selectors of the active block (01 R33), `bank` as the stacks have received them and `dset` as
the damper acts on it (16 R446); `hrst` marks the hearths that HRST holds in reset (17 R479); `now` is the model's clock and `td` disciplined time, in ns. -/
structure State where
  hearths : Vector Hearth 64
  stks    : Vector Stack 8
  mem     : List Host.Cell
  regs    : List (Nat × Word)
  ep      : Ep
  hub     : Hub
  lk      : Link
  felt    : Felt
  xb      : Xbar
  bel     : Vector Bel 2
  dm      : Damper
  afe     : Afe
  dg      : Vector Dgt 2
  pw      : Pw
  sec     : Sec
  pat     : Pat
  host    : HostSt
  hrst    : BitVec 64
  lc      : BitVec 2
  bank    : BitVec 8
  blksel  : Bool
  dset    : Bool
  mtab    : Bool
  now     : Nat
  td      : Nat
  nextId  : Nat
  free    : Nat
  pending : List Instr
deriving DecidableEq, Repr

/-- A hearth after a power-on reset: held in reset, in GS, every register at the value of its map and 0 where the
spec gives the class 0 (05 Table OM-10, 17 R481). -/
def Hearth.reset : Hearth :=
  { run := .held, mode := .gs, ml := 0, sov := false, dov := false, dvz := false, fap := false, fapCause := 0, pc := 0
    g := Vector.replicate 31 0, sp := Vector.replicate 4 0, p := 1
    op := (Vector.replicate 13 0).set 10 0x3FFF, rs := Vector.replicate 15 0, acc := 0
    flights := [], sb := [], sbNew := [], accNew := none, far := [], mbx := none, ic := 0, clk := 0, cych := 0, stallc := 0, waitc := 0
    pbrTgt := 0, pbrRem := 0, pbrV := false, pbrCall := false, lps := 0, lpe := 0, lpc := 0, lpa := 0, repc := 0
    rep := none, wait := .none, twHold := none, entry := none, crown := none, loads := [], btb := [], btbOut := [], pbrKeep := []
    mlDec := 0, gmlDec := 0, mlHeld := false, icpend := 0, nmi30 := false, nmi31 := false, wfp := false, wfg := false
    gsh := false, line := 0, lv := false, armed := false, doorbell := 0, pstat := [], report := none
    cmtPend := false, cmtEdge := false, ful := [], fulPend := false, fulAbort := false, fnsLate := [], portW := [], redN := 0, redOld := [], arr0 := none, arrLost := false
    frinGot := 0, resume := false, cr := [] }

/-- The epoch controller before its first edge (10 R519). -/
def Ep.reset : Ep :=
  { started := false, cur := 0, edge := 0, per := 0, edl := 0, fdl := 0, sdl := 0, tree := 0, part := 0
    maps := Vector.replicate 64 ⟨none, none, none, none, none, none⟩
    pgC := none, pgC1 := none, pgC2 := none, pgS := none, pgS1 := none, staleS := false, staleS1 := false, gate := false
    epdlGone := false, atLim := false, heldSeal := none, lastSeal := none, copies := [], ecmt := 0, elate := 0, dpart := false, dec := []
    token := none, noToken := 0, heard := false, resync := none, mlost := false, lock := false, lockN := 0, rate := 0, rateAcc := 0, step := none }

/-- A port that is down. -/
def Port.reset : Port :=
  { state := 0, why := 0, since := 0, train := 0, hold := 0, tx := 0, rx := 0, replay := [], held := [], cfmd := [], queue := []
    busy := 0, ins := 0, outer := false, cut := []
    cred := Vector.replicate 3 64, dcred := Vector.replicate 3 16, identN := 0, ident := none, stamps := []
    ctlOut := [] }

/-- The link engine after a reset: every port down, every tag free. -/
def Link.reset : Link :=
  { ports := Vector.replicate 4 Port.reset, tags := [], gens := [], wait := [], resp := [], rqs := [], rqSeq := 0 }

/-- The crossbar after a reset: no request, no burst, parked for the boot sequencer. -/
def Xbar.reset : Xbar := ⟨[], Vector.replicate 19 none, 0, false, 0, (0, [])⟩

/-- An idle bellows engine. -/
def Bel.reset : Bel := ⟨.idle, [], 0, [], 0⟩

/-- An output after a reset: off, RESET latched, its accumulator at 32,768 (Table DF-6, DF-7). -/
def Outp.reset : Outp :=
  { win := none, offAt := 0, early := false, hist := [], en := none, enOff := 0, mask := 0x4000, lat := (0, 0), aged := false
    age := 0, draft := 0, live := 0, e := 32768, fire := false, prev := false, cnt := 0, dlv := 0, clr := none }

/-- A phase after a reset: it has no prediction. -/
def PhaseSt.reset : PhaseSt := ⟨[], false, false, 0, 0, none, 0, none⟩

/-- The damper and the firing scheduler when their island leaves reset at `t`. -/
def Damper.reset (t : Nat) : Damper :=
  { out := Vector.replicate 96 { Outp.reset with offAt := t, enOff := t }, ph := Vector.replicate 3 PhaseSt.reset
    ct := Vector.replicate 12 ⟨0, 0, 0, 0, 0, 0, false⟩, born := t, base := t, en := Vector.replicate 16 0
    gwin := Vector.replicate 16 t, grp := 0, phAct := 0, ch := 0, good := 0, chAt := Vector.replicate 48 (Int.ofNat t)
    clk := t, mark := t, rate := 25000, pin := false, pinAct := false, pinAt := 0, bow := false, bowAct := false, bowAt := 0, drt := false, slp := false, tamp := false, bk := false
    vec := none, last := none, ticks := 0, key := none }

/-- The front end after a reset: every channel off, nothing converted. -/
def Afe.reset : Afe :=
  { ch := Vector.replicate 48 ⟨0, false, none, false, 0, 0, false, false, 0⟩, cj := Vector.replicate 3 ⟨false, 0, 0, false⟩
    rate := Vector.replicate 8 0, page := false, edge := false, bad := false, off := false, sent := [] }

/-- A draught that was never enabled. -/
def Dgt.reset : Dgt := ⟨0, 0, false, none, none, false, none⟩

/-- Power after a power-on reset, before start-up: Blaze, every stack at OP0, VDD_IN not set and no clock yet (17 R462, R478,
Tables PW-11, PW-13). -/
def Pw.reset : Pw :=
  { st := 0, booted := false, hold := false, rst := none, sleep := none, edges := [], chg := none, queue := [], cap := 0
    capAt := Vector.replicate 8 0, tj := Vector.replicate 8 0, tjAt := 0, vmode := 0, vin := 0
    res := Vector.replicate 48 0, anow := 0, ares := Vector.replicate 4 0, mark := 0, ref := false, lf := false
    afeLow := false, entry := 0, ask := none }

/-- The life cycle FACTORY (log entry 7), no slot revoked, no debug unlock; the challenge is a free value (16 Table PA-13; log entry 2). -/
def Sec.reset : Sec := ⟨1, 0, none, Vector.ofFn (fun i => Config.freeWord i.val), false, false, 0, false, none, 0⟩

def Pat.reset : Pat := ⟨none, false, false, false, false, 1, 0, 0, 0, none⟩

def HostSt.reset : HostSt :=
  { rxAt := 0, txAt := 0, stop := false, txGo := false, mdio := false, ptp := 0, ptpAt := 0, ptpUp := 0, conf := false, vbus := false
    dfu := 0, dfuSt := 0, ksp := none, nonce := [], auth := false, kstg := false, out := [], i2c := none, i2cSt := 0
    urx := Vector.replicate 2 [], utx := Vector.replicate 2 [], utxAt := Vector.replicate 2 0, gpin := 0, ir := 0x01 }

/-- The machine right after a power-on reset, before START_UP has run. -/
def State.reset : State :=
  { hearths := Vector.replicate 64 Hearth.reset
    stks := Vector.replicate 8 ⟨[], 0, 0, 0, false⟩
    mem := [], regs := [], ep := Ep.reset, felt := ⟨[], [], [], [], 0⟩, xb := Xbar.reset, bel := Vector.replicate 2 Bel.reset, dm := Damper.reset 0, afe := Afe.reset, dg := Vector.replicate 2 Dgt.reset, pw := Pw.reset, sec := Sec.reset, pat := Pat.reset, host := HostSt.reset, hrst := 0, lk := Link.reset, hub := ⟨Vector.replicate 128 [], [], Vector.replicate 64 none, Vector.replicate 5 0⟩, lc := 0
    bank := 0, blksel := false, dset := false, mtab := false, now := 0, td := 0, nextId := 0, free := 4, pending := [] }

end Sys2Proof.Machine
end

