-- ==== Sys2Proof/Machine/Ops.lean ====
section
/-!
DEFINITION. The named operations over memory and registers: the canonical sparse maps, the memory of the part and
its keys, the hearths, and the system registers with their reset values.
-/
namespace Sys2Proof.Machine
open Sys2Proof

/-! ## Sparse maps in canonical form -/

/-- The value at key `k`: the listed one, or what an unlisted key reads as. -/
def smGet {β : Type} (d : Nat → β) : List (Nat × β) → Nat → β
  | [], k => d k
  | (a, v) :: m, k => if k = a then v else if k < a then d k else smGet d m k

/-- The map with `v` at key `k`, in canonical form: keys rising, no entry equal to what an unlisted key reads as. -/
def smSet {β : Type} [DecidableEq β] (d : Nat → β) : List (Nat × β) → Nat → β → List (Nat × β)
  | [], k, v => if v = d k then [] else [(k, v)]
  | (a, w) :: m, k, v =>
    if k < a then (if v = d k then (a, w) :: m else (k, v) :: (a, w) :: m)
    else if k = a then (if v = d k then m else (k, v) :: m)
    else (a, w) :: smSet d m k v

/-- The canonical form, with every key at least `lo`. -/
def smWfFrom {β : Type} [DecidableEq β] (d : Nat → β) : Nat → List (Nat × β) → Bool
  | _, [] => true
  | lo, (a, v) :: m => decide (lo ≤ a) && decide (v ≠ d a) && smWfFrom d (a + 1) m

/-- The canonical form of a sparse map. -/
def smWf {β : Type} [DecidableEq β] (d : Nat → β) (m : List (Nat × β)) : Bool := smWfFrom d 0 m

/-! ## The memory of the part

A store at a global address has its global address as key. Stores without one have keys above 2^32. -/

/-- Key of LDM byte `a` of hearth `h` (01 Table AR-3: hearth-local only). -/
def ldmKey (h : Hid) (a : Nat) : Nat := 0x100000000 + h.val * 0x8000 + a % 0x8000

/-- Key of byte `o` of the working copy of hearth `h` (10 R271). -/
def draftKey (h : Hid) (o : Nat) : Nat := 0x110000000 + h.val * 0x1000 + o % 0x1000

/-- Key of byte `o` of slice `h` in frame `f` (10 R271). -/
def frameKey (f : Fin 3) (h : Hid) (o : Nat) : Nat := 0x120000000 + f.val * 0x40000 + h.val * 0x1000 + o % 0x1000

/-- Key of flash byte `o` (16). -/
def flashKey (o : Nat) : Nat := 0x200000000 + o

/-- Key of byte `o` of the felt bank of hearth `h` (01 R28). -/
def feltKey (h : Hid) (o : Nat) : Nat := 0x20000000 + h.val * 0x50000 + o

/-- Key of byte `o` of program-store bank `b` of stack `k` (01 Table AR-3). -/
def progKey (k : Fin 8) (b : Nat) (o : Nat) : Nat := 0x30000000 + k.val * 0xC0000 + b * 0x60000 + o

/-- What an unlisted byte reads as: the boot ROM's contents, 0xFF in the flash (log entry 5), 0 elsewhere
(17 R481: every store reads zero after a power-on reset). -/
def memDefault (k : Nat) : Byte :=
  if within 0x11000000 k 0x1100FFFF then Config.bootRom (k - 0x11000000)
  else if 0x200000000 ≤ k then 0xFF else 0

/-- The canonical form of the memory. -/
def Memory.wf (m : List Host.Cell) : Bool := smWf memDefault m

def State.byte (s : State) (k : Nat) : Byte := smGet memDefault s.mem k

def State.setByte (s : State) (k : Nat) (v : Byte) : State := { s with mem := smSet memDefault s.mem k v }

/-- `n` bytes from key `k` upward. -/
def State.bytes (s : State) (k : Nat) : Nat → List Byte
  | 0 => []
  | n + 1 => s.byte k :: s.bytes (k + 1) n

/-- Bytes written from key `k` upward. -/
def State.setBytes (s : State) (k : Nat) : List Byte → State
  | [] => s
  | b :: bs => (s.setByte k b).setBytes (k + 1) bs

def State.rd16 (s : State) (k : Nat) : Nat := leNat (s.bytes k 2)
def State.rd32 (s : State) (k : Nat) : Word := w32 (leNat (s.bytes k 4))
def State.wr16 (s : State) (k : Nat) (v : Nat) : State := s.setBytes k (leBytes 2 v)
def State.wr32 (s : State) (k : Nat) (v : Word) : State := s.setBytes k (leBytes 4 v.toNat)

/-- The bytes of `data` whose bit of `mask` is set, written from key `k` upward. -/
def State.wrMask (s : State) (k : Nat) (data : Word) (mask : BitVec 4) : State :=
  (List.range 4).foldl (fun s i => if mask.getLsbD i then s.setByte (k + i) (BitVec.ofNat 8 (lane data i 8)) else s) s

/-- `n` bytes from key `k` upward filled with `v`. -/
def State.fill (s : State) (k : Nat) (v : Byte) : Nat → State
  | 0 => s
  | n + 1 => (s.setByte k v).fill (k + 1) v n

/-! ## Clearing ranges of the memory -/

/-- The memory with no listed byte in `lo`..`hi - 1`: every byte there reads its default again. -/
def State.clearRange (s : State) (lo hi : Nat) : State :=
  { s with mem := s.mem.filter (fun c => !(decide (lo ≤ c.1) && decide (c.1 < hi))) }

/-! ## Hearths and stacks -/

def State.hearth (s : State) (h : Hid) : Hearth := s.hearths[h]

def State.setHearth (s : State) (h : Hid) (x : Hearth) : State := { s with hearths := s.hearths.set h x }

def State.modHearth (s : State) (h : Hid) (f : Hearth → Hearth) : State := s.setHearth h (f (s.hearth h))

/-- Every hearth changed by `f`. -/
def State.mapHearths (s : State) (f : Hid → Hearth → Hearth) : State :=
  { s with hearths := Vector.ofFn (fun h => f h s.hearths[h]) }

/-- The numbers of all hearths, in order. -/
def allHearths : List Hid := List.finRange 64

/-- The stack of a hearth: h div 8 (01 R20). -/
def stackOf (h : Hid) : Fin 8 := ⟨h.val / 8, by omega⟩

/-- The local index of a hearth: h mod 8 (01 R20). -/
def localIx (h : Hid) : Nat := h.val % 8

def State.stack (s : State) (k : Fin 8) : Stack := s.stks[k]

def State.setStack (s : State) (k : Fin 8) (x : Stack) : State := { s with stks := s.stks.set k x }

/-- The hearths of a stack. -/
def hearthsOf (k : Fin 8) : List Hid := allHearths.filter (fun h => h.val / 8 = k.val)

/-- The ns count of a hearth: disciplined time since the tick edge that has reached its stack (05 R149). -/
def State.nsCount (s : State) (h : Hid) : Nat := s.td - (s.stack (stackOf h)).edge

/-- The epoch number as it has reached a hearth's stack (05 R149, 06 R175). -/
def State.epochOf (s : State) (h : Hid) : Nat := (s.stack (stackOf h)).epoch

/-! ## The entry table (16 R435) -/

/-- Block RAM A or B. -/
def bramBase (b : Bool) : Nat := if b then 0x38080000 else 0x38000000

/-- Word `i` of the entry of a hearth in the entry table of block `b`. -/
def State.entryWord (s : State) (b : Bool) (h : Hid) (i : Nat) : Word := s.rd32 (bramBase b + 8 * h.val + 4 * i)

def State.entStart (s : State) (b : Bool) (h : Hid) : BitVec 15 := BitVec.ofNat 15 (fld (s.entryWord b h 0) 0 15)
def State.entRun (s : State) (b : Bool) (h : Hid) : Bool := tb (s.entryWord b h 0) 15
def State.entPark (s : State) (b : Bool) (h : Hid) : BitVec 15 := BitVec.ofNat 15 (fld (s.entryWord b h 0) 16 15)
def State.entResume (s : State) (b : Bool) (h : Hid) : BitVec 15 := BitVec.ofNat 15 (fld (s.entryWord b h 1) 0 15)
def State.entGsh (s : State) (b : Bool) (h : Hid) : Bool := tb (s.entryWord b h 1) 16

/-! ## Control registers of a hearth that are plain words (05 Table OM-10, 07 Table WG-5, 08 Table FE-11, 09 Table AS-6) -/

/-- The value after reset of a plain control register. -/
def crDefault (o : Nat) : Word :=
  if o = 0x01C then 0x7F80 else if o = 0x12C then 0x7F80 else if o = 0x108 then 0xE0000000
  else if o = 0x408 then 1 else if within 0x420 o 0x43C then 1 else if o = 0x45C then 0x64
  else if o = 0x460 then 0x107 else if o = 0x48C then 0x8000 else if o = 0x494 then 2 else if o = 0x498 then 1
  else if within 0x200 o 0x2BF && (o - 0x200) % 12 == 4 then 0x1F else 0

def Hearth.rd (h : Hearth) (o : Nat) : Word := smGet crDefault h.cr o

def Hearth.wr (h : Hearth) (o : Nat) (v : Word) : Hearth := { h with cr := smSet crDefault h.cr o v }

/-- A counter that saturates at the largest value of its 32-bit field (00 R10). -/
def satInc (w : Word) : Word := if w = 0xFFFFFFFF then w else w + 1

def Hearth.count (h : Hearth) (o : Nat) : Hearth := h.wr o (satInc (h.rd o))

/-- The two's complement of `n` ones: an interrupt line made pending by an event (07 R193). -/
def Hearth.raise (h : Hearth) (k : Nat) : Hearth := { h with icpend := setBit h.icpend k true }

/-- An event line raised on one hearth. -/
def State.raise (s : State) (h : Hid) (k : Nat) : State := s.modHearth h (fun x => x.raise k)

/-- An event line raised on all 64 hearths (07 R193). -/
def State.raiseAll (s : State) (k : Nat) : State := s.mapHearths (fun _ x => x.raise k)

/-- Lines 30 and 31: raised on the GS supervisor hearth only, with a raising not yet taken (07 R193, R194). -/
def State.raiseGs (s : State) (k : Nat) : State :=
  s.mapHearths (fun _ x =>
    if x.gsh then (if k = 30 then { x.raise 30 with nmi30 := true } else { x.raise k with nmi31 := true }) else x)

/-- Little-endian words of bytes. -/
def wordsOf : List Byte → List Word
  | a :: b :: c :: d :: r => w32 (leNat [a, b, c, d]) :: wordsOf r
  | [] => []
  | l => [w32 (leNat l)]

/-! ## The two ports of a felt bank (08 R246) -/

/-- Whether a store cell is in the felt, and then its hearth and its bank offset. -/
def inFelt (k : Nat) : Bool := decide (0x20000000 ≤ k) && decide (k < 0x21400000)
def feltHearth (k : Nat) : Hid := ⟨(k - 0x20000000) / 0x50000 % 64, by omega⟩
def feltOff (k : Nat) : Nat := (k - 0x20000000) % 0x50000

/-- The writes to a bank in its current cycle: the model's clock and the hearth's own stand where they stood (log entry 47). -/
def State.portNow (s : State) (h : Hid) : List PortWr :=
  (s.hearth h).portW.filter (fun w => w.now == s.now && w.clk == (s.hearth h).clk)

/-- A write of bytes of a word is noted on its port; if the other port has written the word in this cycle, the collision is
counted in FCOLL and FCOLLA holds the offset. -/
def State.portNote (s : State) (h : Hid) (b : Bool) (off : Nat) (mask : BitVec 4) : State :=
  let ws := s.portNow h
  s.modHearth h (fun x =>
    let y : Hearth := { x with portW := ws ++ [⟨b, s.now, x.clk, off, mask⟩] }
    if ws.any (fun w => w.b != b && w.off == off) then (y.count 0x440).wr 0x444 (w32 off) else y)

/-- A write on port A of the bytes of a word in `mask`: those that port B writes in this cycle stay as B writes them. -/
def State.portA (s : State) (h : Hid) (off : Nat) (data : Word) (mask : BitVec 4) : State :=
  let late := (s.portNow h).foldl (fun (m : BitVec 4) w => if w.b && w.off == off then m ||| w.mask else m) 0
  (s.wrMask (feltKey h off) data (mask &&& ~~~late)).portNote h false off mask

/-- The words that `n` bytes from offset `o` touch, each with its mask. -/
def wordsHit (o n : Nat) : List (Nat × BitVec 4) :=
  (List.range ((o % 4 + n + 3) / 4)).map (fun i =>
    let w := o / 4 * 4 + 4 * i
    (w, BitVec.ofNat 4 (((List.range 4).filter (fun j => decide (o ≤ w + j) && decide (w + j < o + n))).foldl (fun r j => r + 2 ^ j) 0)))

/-- A write of bytes on port B (crossbar, halo switch, link engine). -/
def State.portB (s : State) (k : Nat) (bs : List Byte) : State :=
  (wordsHit (feltOff k) bs.length).foldl (fun (s : State) w => s.portNote (feltHearth k) true w.1 w.2) (s.setBytes k bs)

/-- A write of whole words on port A (the fulling unit, the stack halo bus). -/
def State.portAs (s : State) (h : Hid) (o : Nat) : List Word → State
  | [] => s
  | w :: r => (s.portA h o w 15).portAs h (o + 4) r

/-! ## Clocks that stand (17 R468, R470) -/

/-- How many islands have accepted the sleep request under way, in the order of Table PW-6; each has stopped. -/
def State.stopped (s : State) : Nat :=
  match s.pw.sleep with
  | some (_, n, _) => n
  | none => 0

/-- The clock of a stack runs: in Blaze, unless it has stopped for an entry into sleep. -/
def State.stackRuns (s : State) (k : Fin 8) : Bool := s.pw.st == 0 && decide (s.stopped ≤ k.val)

end Sys2Proof.Machine
end

