-- ==== Sys2Proof/Machine/RegMap.lean ====
section
/-!
DEFINITION. The registers of the system blocks that are plain words (the register tables of 07 and 10 to 18): offsets,
values after reset and access codes (00 Table SC-4). A register that shows other state has its row here too; its
reading is the block's.
-/
namespace Sys2Proof.Machine
open Sys2Proof

/-- `n` registers from `off`, `stride` bytes apart: the value after reset and the masks of the access codes. -/
structure RegRow where
  off    : Nat
  n      : Nat := 1
  stride : Nat := 4
  reset  : Word := 0
  rw     : Word := 0
  rwl    : Word := 0
  w1c    : Word := 0
  w1s    : Word := 0
  rc     : Word := 0
deriving DecidableEq, Repr

def ff : Word := 0xFFFFFFFF

/-- SYSCTL (14 R386). -/
def sysctlRows : List RegRow := [{ off := 0x000 }, { off := 0x004, w1s := 1 }]

/-- XBAR (14 Table XB-5). -/
def xbarRows : List RegRow :=
  [{ off := 0x000, w1s := 1 }, { off := 0x004, rwl := 0x7FFFF }, { off := 0x008, n := 2, rwl := ff },
   { off := 0x010, rwl := 0xFFF }, { off := 0x014, rwl := 0xFFF }, { off := 0x018, rwl := 0xF }, { off := 0x01C, n := 2 },
   { off := 0x024, w1c := 0x80000000 }, { off := 0x028, rc := ff }, { off := 0x040, n := 15, rc := 0xFFFF }]

/-- BELLOWS (14 Table XB-8). -/
def bellowsRows : List RegRow :=
  [{ off := 0x000, n := 2, stride := 0x40, rwl := 3 }, { off := 0x004, n := 2, stride := 0x40, rw := 0xFFFFFFE0 },
   { off := 0x008, n := 2, stride := 0x40 }, { off := 0x00C, n := 2, stride := 0x40, w1c := 6 },
   { off := 0x010, n := 2, stride := 0x40 }, { off := 0x014, n := 2, stride := 0x40 },
   { off := 0x018, n := 2, stride := 0x40, rc := ff }, { off := 0x100, w1s := 1 }]

/-- MBOX (13 Table MB-5). -/
def mboxRows : List RegRow :=
  [{ off := 0x000, rwl := 3, w1s := 0x100 }, { off := 0x004, reset := 0x24, rwl := 0xFFFFFF }, { off := 0x008, w1c := 0x3F },
   { off := 0x010, n := 3, rc := ff }, { off := 0x020 }, { off := 0x100, n := 96, rwl := 0xBF }, { off := 0x280, n := 32, rwl := 0x1F3FFFFF },
   { off := 0x300, n := 128 },   { off := 0x600, n := 8, rw := ff }, { off := 0x640, n := 8, rw := ff }, { off := 0x680, n := 8, rw := ff },
   { off := 0x6C0, n := 8, rw := ff }, { off := 0x700, n := 8, rw := ff }, { off := 0x620, n := 5, stride := 0x40 },
   { off := 0x624, n := 5, stride := 0x40 }, { off := 0x800, n := 64 }, { off := 0x900, n := 64 }, { off := 0xA00, n := 3 }]

/-- EPOCH (10 Table MN-6). -/
def epochRows : List RegRow :=
  [{ off := 0x000, rwl := 0x1E, w1s := 0x101 }, { off := 0x004, n := 2, rwl := 0x1FFFF }, { off := 0x00C, n := 2, rwl := 0x1FFFFF },
   { off := 0x014, rwl := 0x3FFFFFF7 }, { off := 0x018, n := 2, rwl := ff }, { off := 0x020, n := 3 }, { off := 0x030, n := 4 },
   { off := 0x040, rc := ff }, { off := 0x044 }, { off := 0x048, w1c := 0xFF }, { off := 0x04C, rw := 0xFF }, { off := 0x050, n := 3 },
   { off := 0x05C, n := 2, rc := ff }, { off := 0x070, n := 3 }, { off := 0x07C, rc := ff }, { off := 0x080, n := 32 }, { off := 0x100, n := 16 }]

/-- DAMPER (11 Table DF-6). -/
def damperRows : List RegRow :=
  [{ off := 0x000, reset := 0x01000000, rwl := 0xFEFF0003, w1s := 0x100 }, { off := 0x004 }, { off := 0x008, reset := 0x4000, w1c := 0xFFFF },
   { off := 0x00C }, { off := 0x010, n := 3 }, { off := 0x020, n := 3 }, { off := 0x030, n := 3 }, { off := 0x040, n := 3 }, { off := 0x050 },
   { off := 0x054, w1c := 0xE }, { off := 0x058, rw := 0x1F }, { off := 0x060, n := 2 }, { off := 0x080, n := 16, stride := 8, rw := 0xFFC },
   { off := 0x084, n := 16, stride := 8, rw := ff }, { off := 0x100, n := 24 }, { off := 0x200, n := 96 }, { off := 0x400, n := 96 },
   { off := 0x600, n := 16 }, { off := 0x1000, n := 1024 }, { off := 0x2000, n := 1024 }]

/-- FIRING (11 Table DF-7). -/
def firingRows : List RegRow :=
  [{ off := 0x000, rwl := 0x3FF, w1s := 0x80000000 }, { off := 0x004, rwl := 0xFFFFFF }, { off := 0x008, rwl := 0xFFFF }, { off := 0x00C },
   { off := 0x010, w1c := 0xFF }, { off := 0x014, rw := 0xFF }, { off := 0x018, n := 3 }, { off := 0x024 }, { off := 0x028, rc := ff },
   { off := 0x040, n := 8, rwl := 0x1FFFFFF }, { off := 0x060, w1c := 0x0FFF0FFF }, { off := 0x064, w1c := 0xFFF }, { off := 0x080, n := 12 },
   { off := 0x100, n := 96 }, { off := 0x300, n := 96 }, { off := 0x500, n := 96 }, { off := 0x700, n := 96 }]

/-- AFE (15 Table ME-7). -/
def afeRows : List RegRow :=
  [{ off := 0x000, w1s := 0x100 }, { off := 0x004 }, { off := 0x008, w1c := 0x3F }, { off := 0x00C, rw := 0x3F }, { off := 0x010, n := 3 },
   { off := 0x020, n := 8, rwl := 7 }, { off := 0x040, rwl := 6 }, { off := 0x044, rw := ff }, { off := 0x048, rw := 0xFFFF },
   { off := 0x060, rwl := 0xFFF }, { off := 0x100, n := 48, rwl := 0x1337 }, { off := 0x200, n := 48, stride := 8, rw := ff },
   { off := 0x204, n := 48, stride := 8, rw := 0x7FFFFFF }, { off := 0x400, n := 48 }, { off := 0x8000, n := 128 }]

/-- DRAUGHT (07 Table WG-13). -/
def draughtRows : List RegRow :=
  [{ off := 0x00, w1s := 3 }, { off := 0x40, w1s := 3, rwl := 4 }, { off := 0x04, n := 2, stride := 0x40, rwl := 0xFFFFFF },
   { off := 0x08, n := 2, stride := 0x40, rwl := 0xFFFFFF }, { off := 0x0C, n := 2, stride := 0x40, rwl := 0xFFFFFF },
   { off := 0x10, n := 2, stride := 0x40 }, { off := 0x14, n := 2, stride := 0x40 }, { off := 0x18, n := 2, stride := 0x40, w1c := 7 }]

/-- PWR (17 Table PW-11). -/
def pwrRows : List RegRow :=
  [{ off := 0x000, w1s := 0x100 }, { off := 0x004, rw := 0x77777777 }, { off := 0x008, n := 6 }, { off := 0x020, rw := 0xFFFF03 }, { off := 0x024 },
   { off := 0x028, w1c := 0x1F }, { off := 0x02C, rw := 7 }, { off := 0x030, n := 4 }, { off := 0x040, rw := ff },
   { off := 0x100, n := 96 }]

/-- CLK (17 Table PW-13). -/
def clkRows : List RegRow := [{ off := 0x000 }, { off := 0x004, w1c := 7 }]

/-- AON (17 Table PW-12). -/
def aonRows : List RegRow :=
  [{ off := 0x000, w1s := 0x100 }, { off := 0x004, reset := 1, w1c := 0xFF }, { off := 0x008, rc := ff }, { off := 0x00C, w1c := 1 },
   { off := 0x010 }, { off := 0x014, reset := 1, rwl := 0xFFFF3 }, { off := 0x018, n := 3 }, { off := 0x024, rw := ff },
   { off := 0x028, rw := 0x8000FFFF }, { off := 0x02C, reset := 0x40, rwl := 0x37F }, { off := 0x030, n := 8 }]

/-- PATTERN (16 Table PA-11). -/
def patternRows : List RegRow :=
  [{ off := 0x000, w1s := 0x100 }, { off := 0x004, n := 3 }, { off := 0x010, rw := 1 }, { off := 0x014, n := 2 }, { off := 0x020 },
   { off := 0x024, w1c := 4 }, { off := 0x030, rw := ff }, { off := 0x034, rw := 0xFFFF }, { off := 0x038 }, { off := 0x03C, w1c := 0xC },
   { off := 0x040, n := 2 }, { off := 0x048, rw := 0xFFFFF }, { off := 0x050 }, { off := 0x060, rw := 0x107F03FF }, { off := 0x064, rw := ff },
   { off := 0x068, w1c := 6 }, { off := 0x080, n := 16, rw := ff }]

/-- SEC (16 Table PA-12). -/
def secRows : List RegRow :=
  [{ off := 0x000, n := 6 }, { off := 0x018, w1c := 0xF }, { off := 0x01C }, { off := 0x020, rwl := 0xF }, { off := 0x024, n := 2 },
   { off := 0x030 }, { off := 0x040, n := 4 }, { off := 0x050, n := 16, rw := ff }, { off := 0x090 }, { off := 0x0A0, n := 8, rw := ff },
   { off := 0x0C0, n := 16, rw := ff }, { off := 0x100, w1s := 0x100 }]

/-- ETH (18 Table HS-3). -/
def ethRows : List RegRow :=
  [{ off := 0x000, rwl := 0x3F, w1s := 0x100 }, { off := 0x004, rwl := ff }, { off := 0x008, rwl := 0xFFFF }, { off := 0x010, n := 2, rw := 0xFFFFFFF0 },
   { off := 0x018 }, { off := 0x01C, w1c := 0xF }, { off := 0x020, rw := 0xF }, { off := 0x024, rc := ff }, { off := 0x028, rw := 0x7FFFFFF },
   { off := 0x040, n := 3 }, { off := 0x04C, rw := ff }, { off := 0x050, n := 2, rw := ff }]

/-- USB (18 Table HS-3). -/
def usbRows : List RegRow :=
  [{ off := 0x000, rwl := 3, rw := 4, w1s := 0x100 }, { off := 0x004, rwl := ff }, { off := 0x008 }, { off := 0x00C, w1c := 0xF },
   { off := 0x010, rw := 0xF }, { off := 0x020, rw := 0xFFFFFFDF }, { off := 0x024 }, { off := 0x028, rw := ff },
   { off := 0x030, rw := 0xFFFFFFDF }, { off := 0x034, rw := ff }, { off := 0x038 }]

/-- GPIO, I2C and UART (18 Table HS-3). -/
def giuRows : List RegRow :=
  [{ off := 0x000, n := 2, rw := ff }, { off := 0x008, n := 3 }, { off := 0x014, n := 3, rw := ff }, { off := 0x020, w1c := ff },
   { off := 0x024, n := 2, rw := ff }, { off := 0x080, rwl := 3, w1s := 0x100 }, { off := 0x084, n := 2 }, { off := 0x090, n := 4, rw := ff },
   { off := 0x100, n := 2, stride := 0x40, rwl := 0xFFFFF, w1s := 0x1000000 }, { off := 0x104, n := 2, stride := 0x40 },
   { off := 0x108, n := 2, stride := 0x40 }, { off := 0x10C, n := 2, stride := 0x40, w1c := 0x10000 }]

/-- LINK (12 Table YL-9). -/
def linkRows : List RegRow :=
  [{ off := 0x000, rwl := 7, w1s := 0x100 }, { off := 0x004, rwl := 0x3FFF }, { off := 0x008, rwl := 0x1FF0003 }, { off := 0x00C, rwl := 0xFFFF },
   { off := 0x010, reset := 0x24, rwl := 0xFFFF }, { off := 0x014, rwl := 0x3FFF }, { off := 0x018 }, { off := 0x01C, w1c := 0x3FF },
   { off := 0x020, rw := 0x3FF }, { off := 0x024, n := 7, rc := ff }, { off := 0x040, n := 4, stride := 0x20, rwl := 0x3F },
   { off := 0x044, n := 4, stride := 0x20 }, { off := 0x048, n := 4, stride := 0x20 }, { off := 0x04C, n := 4, stride := 0x20, rc := ff },
   { off := 0x050, n := 4, stride := 0x20 }, { off := 0x100, n := 8, stride := 12, rwl := 0xFFFFF000 },
   { off := 0x104, n := 8, stride := 12, rwl := 0xFFFFF000 }, { off := 0x108, n := 8, stride := 12, rwl := 0x3F }]

/-- The rows of the block at 0x4000_0000 + b × 0x1_0000 (14 Table XB-1). -/
def blockRows (b : Nat) : List RegRow :=
  if b = 0 then sysctlRows
  else if b = 1 then pwrRows
  else if b = 2 then clkRows
  else if b = 3 then xbarRows
  else if b = 4 then epochRows
  else if b = 5 then damperRows
  else if b = 6 then firingRows
  else if b = 7 then afeRows
  else if b = 8 then linkRows
  else if b = 9 then mboxRows
  else if b = 10 then bellowsRows
  else if b = 11 then patternRows
  else if b = 12 then secRows
  else if b = 13 then ethRows
  else if b = 14 then usbRows
  else if b = 15 then giuRows
  else if b = 16 then aonRows
  else if b = 17 then draughtRows
  else []

/-- The row of an offset. -/
def RegRow.has (r : RegRow) (o : Nat) : Bool :=
  decide (r.off ≤ o) && decide ((o - r.off) % r.stride = 0) && decide ((o - r.off) / r.stride < r.n)

def rowOf (a : Nat) : Option RegRow :=
  if within 0x40000000 a 0x4011FFFF then (blockRows ((a - 0x40000000) / 0x10000)).find? (fun r => r.has (a % 0x10000)) else none

/-- The last offset a block's chapter defines: an access beyond it reaches no target (14 R384). -/
def blockEnd (b : Nat) : Nat := (blockRows b).foldl (fun m r => max m (r.off + (r.n - 1) * r.stride + 3)) 0

/-- The value after reset of a plain system register, by global address. -/
def regDefault (a : Nat) : Word :=
  match rowOf a with
  | some r => r.reset
  | none => 0

end Sys2Proof.Machine
end

