-- ==== Sys2Proof/Machine/Regs.lean ====
section
/-!
DEFINITION. The registers of the system blocks that are plain words: their values after reset and their access by
global address.
-/
namespace Sys2Proof.Machine
open Sys2Proof

def State.reg (s : State) (a : Nat) : Word := smGet regDefault s.regs a

def State.setReg (s : State) (a : Nat) (v : Word) : State := { s with regs := smSet regDefault s.regs a v }

/-- A register changed by `f`. -/
def State.modReg (s : State) (a : Nat) (f : Word → Word) : State := s.setReg a (f (s.reg a))

/-- A counting register, saturating (00 R10). -/
def State.count (s : State) (a : Nat) : State := s.modReg a satInc

/-- A plain register as a write leaves it: RW fields, RWL fields unless locked, W1C and W1S bits (00 Table SC-4). -/
def RegRow.written (r : RegRow) (locked : Bool) (old v : Word) : Word :=
  let m := if locked then r.rw else r.rw ||| r.rwl
  (blend old v m &&& ~~~(v &&& r.w1c)) ||| (v &&& r.w1s)

/-- A write to a plain register by global address. -/
def State.putReg (s : State) (a : Nat) (v : Word) (locked : Bool) : State :=
  match rowOf a with
  | some r => s.setReg a (r.written locked (s.reg a) v)
  | none => s

/-- A read of a plain register clears its RC fields (00 R10). -/
def State.clearRc (s : State) (a : Nat) : State :=
  match rowOf a with
  | some r => s.setReg a (s.reg a &&& ~~~r.rc)
  | none => s

/-- What leaves a port: its kind, a status, its bytes. -/
def State.setHost (s : State) (x : HostSt) : State := { s with host := x }
def State.emit (s : State) (kind st : Nat) (bs : List Byte) : State := s.setHost { s.host with out := s.host.out ++ [(kind, st, bs)] }

/-- This device's node id, LNODE (12 Table YL-9). -/
def State.nodeId (s : State) : BitVec 14 := BitVec.ofNat 14 (fld (s.reg 0x40080004) 0 14)

/-- MBCFGn (13 Table MB-5). -/
def State.mbcfg (s : State) (n : Nat) : Word := s.reg (0x40090100 + 4 * n)

/-- Fields of MBCFGn: the receiving hearth, the world of a remote mailbox, and EN. -/
def mbRcv (c : Word) : Hid := fin 64 (fld c 0 6)
def mbG (c : Word) : Bool := tb c 6
def mbEn (c : Word) : Bool := tb c 7

end Sys2Proof.Machine
end

