-- ==== Sys2Proof/Machine/Flags.lean ====
section
/-!
DEFINITION. The status bits of a hearth: HSR as software reads and writes it, the sticky bits (04 R109 to R111), and
the landing of operations in flight at the end of an issue cycle (03 R52, 04 R107, R110, R120, R121, R123).
-/
namespace Sys2Proof.Machine
open Sys2Proof

/-- HSR as it reads (05, HSR). -/
def Hearth.hsr (h : Hearth) : Word :=
  w32 h.ml.toNat ||| w32 ((modeNo h.mode).val * 16) ||| bitAt h.sov 8 ||| bitAt h.dov 9 ||| bitAt h.dvz 10
    ||| bitAt h.fap 11

/-- A write to HSR: ML is written, a 1 clears a sticky bit (05, HSR). -/
def Hearth.writeHsr (h : Hearth) (v : Word) : Hearth :=
  { h with ml := BitVec.ofNat 3 (fld v 0 3), sov := h.sov && !tb v 8, dov := h.dov && !tb v 9, dvz := h.dvz && !tb v 10 }

/-- Sticky bits set by operations, never cleared by one (R109). -/
def Hearth.stick (h : Hearth) (sov dov dvz : Bool) : Hearth :=
  { h with sov := h.sov || sov, dov := h.dov || dov, dvz := h.dvz || dvz }

/-- sat(v, lo, hi) of 04: the clamped value, and whether it clamped. -/
def sat (v lo hi : Int) : Int × Bool := (clampI v lo hi, decide (v < lo) || decide (v > hi))

/-- The sum A' of an accumulating operation before its saturation (04 Table OC-5). -/
def accSum (op : AccOp) (a : Int) (t o : Word) : Int :=
  match op with
  | .mac => a + slane t 0 16 * slane o 0 16
  | .msu => a - slane t 0 16 * slane o 0 16
  | .macH2 => a + (slane t 0 16 * slane o 0 16 + slane t 1 16 * slane o 1 16)
  | .msuH2 => a - (slane t 0 16 * slane o 0 16 + slane t 1 16 * slane o 1 16)
  | .macu => a + (lane t 0 16 : Int) * (lane o 0 16 : Int)
  | .accr => a
  | .accrH => a

/-- Rounding shift of sarr, accr and accr.h: floor((x + h) / 2^n), h = 2^(n-1) if n > 0 (04 Table OC-4, OC-5). -/
def roundShr (x : Int) (n : Nat) : Int := if n = 0 then x else floorShr (x + 2 ^ (n - 1)) n

/-- The final stage of an ACC operation: MUL.r, MUL.h, the new ACC and SOV (04 R120, R122, R123). -/
def accFinal (op : AccOp) (acc : BitVec 48) (t o : Word) : Word × Word × BitVec 48 × Bool :=
  match op with
  | .accr =>
    let r := sat (roundShr acc.toInt (fld t 0 6)) (-2147483648) 2147483647
    (wOfInt r.1, sext16 (acc.toNat / 2 ^ 32), acc, r.2)
  | .accrH =>
    let r := sat (roundShr acc.toInt (fld t 0 6)) (-32768) 32767
    (wOfInt r.1, sext16 (acc.toNat / 2 ^ 32), acc, r.2)
  | op =>
    let r := sat (accSum op acc.toInt t o) (-140737488355328) 140737488355327
    let a : BitVec 48 := BitVec.ofInt 48 r.1
    (wOfInt r.1, sext16 (a.toNat / 2 ^ 32), a, r.2)

/-- One operation in flight lands: its results become visible and its sticky bits are set (03 R52, 04 R110). -/
def Hearth.land (h : Hearth) (f : Flight) : Hearth :=
  match f.kind with
  | .idle => h
  | .one k v => { h with rs := h.rs.set k v }.stick f.sov f.dov f.dvz
  | .two k1 k2 v1 v2 => { h with rs := (h.rs.set k1 v1).set k2 v2 }.stick f.sov f.dov f.dvz
  | .acc op t o =>
    let r := accFinal op h.acc t o
    { h with rs := (h.rs.set 3 r.1).set 4 r.2.1, acc := r.2.2.1 }.stick r.2.2.2 false false

/-- Every operation due by issue cycle `c` lands, in the order it was triggered: of two loads of one LSU with different latencies
that become due in one cycle, the later trigger's result remains, where the spec names none (DESIGN CHOICE, log entry 30). -/
def Hearth.landDue (h : Hearth) (c : Nat) : Hearth :=
  let due := h.flights.filter (fun f => decide (f.due ≤ c))
  { (due.foldl Hearth.land h) with flights := h.flights.filter (fun f => !decide (f.due ≤ c)) }

end Sys2Proof.Machine
end

