-- ==== Sys2Proof/Machine/Operands.lean ====
section
/-!
DEFINITION. The operand forms of a hearth: sources and destinations of moves (03 Tables HT-5, HT-6), the banked
stack pointer (R73), the predicates (R74), the scoreboard (05 R141, R146; 08 R236), and the tracking table (06 R170).
-/
namespace Sys2Proof.Machine
open Sys2Proof

/-- g31 of a mode (R73). -/
def Hearth.spOf (h : Hearth) (m : Mode) : Word := h.sp[modeNo m]

def Hearth.setSp (h : Hearth) (m : Mode) (v : Word) : Hearth := { h with sp := h.sp.set (modeNo m) v }

/-- A general register as the current mode sees it (R72, R73). -/
def Hearth.reg (h : Hearth) (r : Fin 32) : Word :=
  if hr : r.val < 31 then h.g[r.val] else h.spOf h.mode

def Hearth.setReg (h : Hearth) (r : Fin 32) (v : Word) : Hearth :=
  if hr : r.val < 31 then { h with g := h.g.set r.val v } else h.setSp h.mode v

/-- A predicate; p0 reads 1 (R74). -/
def Hearth.pred (h : Hearth) (n : Nat) : Bool := n == 0 || h.p.getLsbD n

/-- A predicate written with bit 0 of a value; writes to p0 are ignored (R64, R74). -/
def Hearth.setPred (h : Hearth) (n : Nat) (v : Word) : Hearth :=
  if n = 0 then h
  else if tb v 0 then { h with p := h.p ||| BitVec.ofNat 8 (2 ^ n) }
  else { h with p := h.p &&& ~~~(BitVec.ofNat 8 (2 ^ n)) }

/-- The value of a source socket (Table HT-6). -/
def Hearth.src (h : Hearth) (id : Nat) : Word :=
  if id < 0x20 then h.reg (fin 32 id)
  else if id < 0x28 then (if h.pred (id - 0x20) then 1 else 0)
  else h.rs[fin 15 (id - 0x28)]

/-- Operand and auxiliary sockets by id (Table HT-5); MUL.a is ACC and is not among them. -/
def Hearth.opnd (h : Hearth) (id : Nat) : Word := h.op[fin 13 (id - 0x28)]

/-! ## The scoreboard -/

/-- A far access still waits to deliver into `d` (R141). -/
def Hearth.destPend (h : Hearth) (d : FarDest) : Bool := h.far.any (fun f => f.dest == d)

/-- The destination a register number names in the current mode (R141). -/
def Hearth.destOf (h : Hearth) (r : Fin 32) : FarDest :=
  if hr : r.val < 31 then .reg ⟨r.val, hr⟩ else .sp h.mode

def Hearth.regPend (h : Hearth) (r : Fin 32) : Bool := h.destPend (h.destOf r)

/-- LSU1.r waits for an atomic (R141). -/
def Hearth.lsu1Pend (h : Hearth) : Bool := h.destPend .lsu1

/-- MBX.r waits for the hub (R146). -/
def Hearth.mbxPend (h : Hearth) : Bool := h.mbx.isSome

/-- A source socket that the scoreboard holds (R141, R146; 08 R236). -/
def Hearth.srcPend (h : Hearth) (id : Nat) : Bool :=
  if id < 0x20 then h.regPend (fin 32 id)
  else if id = 0x31 then h.lsu1Pend
  else if id = 0x33 then h.fulPend
  else if id = 0x34 then h.mbxPend
  else false

/-! ## The operation tracking table (06 R170, Table SK-4) -/

/-- Whether a unit's operations take an entry of the pipeline class. -/
def FUnit.tracked : FUnit → Bool
  | .mul => true
  | .div => true
  | .lsu0 => true
  | .lsu1 => true
  | .tmr => true
  | .sys => true
  | .alu0 => false
  | .alu1 => false
  | .shf => false
  | .pred => false
  | .ctl => false

/-- Whether a far access is a store. -/
def farIsStore : FarKind → Bool
  | .st => true
  | .sth => true
  | .ld => false
  | .ldhu => false
  | .add => false
  | .addsH2 => false
  | .swap => false

/-- Whether a far access is a felt atomic. -/
def farIsAtomic : FarKind → Bool
  | .add => true
  | .addsH2 => true
  | .swap => true
  | .ld => false
  | .ldhu => false
  | .st => false
  | .sth => false

/-- Far loads and atomics in flight: OTT.FLD. -/
def Hearth.nFld (h : Hearth) : Nat := (h.far.filter (fun f => !farIsStore f.kind)).length

/-- Far stores unacknowledged: OTT.FST. -/
def Hearth.nFst (h : Hearth) : Nat := (h.far.filter (fun f => farIsStore f.kind)).length

/-- Fulling requests in flight: OTT.FRQ. -/
def Hearth.nFrq (h : Hearth) : Nat := h.ful.length

/-- Entries of the pipeline class in use. -/
def Hearth.pipe (h : Hearth) : Nat :=
  (h.flights.filter (fun f => f.unit.tracked)).length + (if h.mbxPend then 1 else 0)

/-- Entries in use: OTT.USED. -/
def Hearth.ottUsed (h : Hearth) : Nat := h.pipe + h.nFld + h.nFst + h.nFrq

/-- OTT as it reads (05, OTT). -/
def Hearth.ott (h : Hearth) : Word :=
  w32 (h.ottUsed % 64 + h.nFld % 32 * 2 ^ 8 + h.nFst % 16 * 2 ^ 16 + h.nFrq % 16 * 2 ^ 24)

/-- PBR as it reads (05, PBR). -/
def Hearth.pbr (h : Hearth) : Word :=
  w32 (h.pbrTgt.toNat + h.pbrRem.toNat * 2 ^ 16) ||| bitAt h.pbrV 31

/-- The latency of MUL and of DIV in the class in force (04 Table OC-1, 06 Table SK-7). Where no header was accepted (Hold, 16 R439) the
spec gives MLAT.LC no value: it is 0 and the latencies are those of LC1 (DESIGN CHOICE, log entry 31). -/
def State.mulL (s : State) (h : Hid) : Nat := if (s.stack (stackOf h)).lc = 2 then 2 else 3
def State.divL (s : State) (h : Hid) : Nat := if (s.stack (stackOf h)).lc = 2 then 14 else 18

/-- A division is under way: the divider is busy (R128). -/
def Hearth.divBusy (h : Hearth) : Bool := h.flights.any (fun f => f.unit == .div && decide (h.ic < f.due))

/-- An operation started in the current issue cycle with latency `l` (R52). -/
def Hearth.fly (h : Hearth) (u : FUnit) (l : Nat) (k : FlightKind) (sov dov dvz : Bool) : Hearth :=
  { h with flights := h.flights ++ [⟨u, h.ic + l, h.ic + l, k, sov, dov, dvz⟩] }

end Sys2Proof.Machine
end

