-- ==== Sys2Proof/Machine/Compute.lean ====
section
/-!
DEFINITION. The operations of ALU0, ALU1, SHF, MUL, DIV and PRED on T and O (04 Tables OC-3 to OC-7). An ALU or SHF
operation answers its result and whether it sets SOV.
-/
namespace Sys2Proof.Machine
open Sys2Proof

/-- A result that sets no sticky bit. -/
def plain (r : Word) : Word × Bool := (r, false)

/-- A saturated exact value as a result. -/
def satW (v lo hi : Int) : Word × Bool := (wOfInt (sat v lo hi).1, (sat v lo hi).2)

/-- A result assembled from lanes of width `w`, `n` of them, each an exact value and whether it clamped (R113, R116). -/
def lanes (n w : Nat) (f : Nat → Int × Bool) : Word × Bool :=
  ((List.range n).foldl (fun r i => r ||| w32 (trunc w (f i).1 * 2 ^ (w * i))) 0, (List.range n).any (fun i => (f i).2))

/-! ## ALU (Table OC-3) -/

def aluAdd (t o : Word) : Word × Bool := plain (t + o)
def aluSub (t o : Word) : Word × Bool := plain (t - o)
def aluRsub (t o : Word) : Word × Bool := plain (o - t)
def aluAddcy (t o : Word) : Word × Bool := plain (if 2 ^ 32 ≤ t.toNat + o.toNat then 1 else 0)
def aluSubbw (t o : Word) : Word × Bool := plain (if t.toNat < o.toNat then 1 else 0)
def aluAdds (t o : Word) : Word × Bool := satW (t.toInt + o.toInt) (-2147483648) 2147483647
def aluSubs (t o : Word) : Word × Bool := satW (t.toInt - o.toInt) (-2147483648) 2147483647
def aluAddus (t o : Word) : Word × Bool := satW (t.toNat + o.toNat) 0 4294967295
def aluSubus (t o : Word) : Word × Bool := satW ((t.toNat : Int) - o.toNat) 0 4294967295
def aluAnd (t o : Word) : Word × Bool := plain (t &&& o)
def aluOr (t o : Word) : Word × Bool := plain (t ||| o)
def aluXor (t o : Word) : Word × Bool := plain (t ^^^ o)
def aluAndn (t o : Word) : Word × Bool := plain (t &&& ~~~o)
def aluNot (t _o : Word) : Word × Bool := plain (~~~t)
def aluNeg (t _o : Word) : Word × Bool := (0 - t, t == 0x80000000)
def aluNegs (t _o : Word) : Word × Bool := satW (-t.toInt) (-2147483648) 2147483647
def aluAbs (t _o : Word) : Word × Bool := (if t.toInt < 0 then 0 - t else t, t == 0x80000000)
def aluAbss (t _o : Word) : Word × Bool := if t.toInt < 0 then satW (-t.toInt) (-2147483648) 2147483647 else plain t
def aluMin (t o : Word) : Word × Bool := plain (if t.toInt ≤ o.toInt then t else o)
def aluMax (t o : Word) : Word × Bool := plain (if o.toInt ≤ t.toInt then t else o)
def aluMinu (t o : Word) : Word × Bool := plain (if t.toNat ≤ o.toNat then t else o)
def aluMaxu (t o : Word) : Word × Bool := plain (if o.toNat ≤ t.toNat then t else o)
def aluPass (t _o : Word) : Word × Bool := plain t
def aluAddB4 (t o : Word) : Word × Bool := lanes 4 8 (fun i => ((lane t i 8 + lane o i 8 : Nat), false))
def aluSubB4 (t o : Word) : Word × Bool := lanes 4 8 (fun i => ((lane t i 8 : Int) - lane o i 8, false))
def aluAddusB4 (t o : Word) : Word × Bool := lanes 4 8 (fun i => sat ((lane t i 8 : Int) + lane o i 8) 0 255)
def aluSubusB4 (t o : Word) : Word × Bool := lanes 4 8 (fun i => sat ((lane t i 8 : Int) - lane o i 8) 0 255)
def aluAddH2 (t o : Word) : Word × Bool := lanes 2 16 (fun i => ((lane t i 16 + lane o i 16 : Nat), false))
def aluSubH2 (t o : Word) : Word × Bool := lanes 2 16 (fun i => ((lane t i 16 : Int) - lane o i 16, false))
def aluAddsH2 (t o : Word) : Word × Bool := lanes 2 16 (fun i => sat (slane t i 16 + slane o i 16) (-32768) 32767)
def aluSubsH2 (t o : Word) : Word × Bool := lanes 2 16 (fun i => sat (slane t i 16 - slane o i 16) (-32768) 32767)

/-- The ALU operations in trigger order, ids 0x40 to 0x5E (Table OC-3). -/
def aluOps : List (Word → Word → Word × Bool) :=
  [aluAdd, aluSub, aluRsub, aluAddcy, aluSubbw, aluAdds, aluSubs, aluAddus, aluSubus, aluAnd, aluOr, aluXor, aluAndn,
   aluNot, aluNeg, aluNegs, aluAbs, aluAbss, aluMin, aluMax, aluMinu, aluMaxu, aluPass, aluAddB4, aluSubB4,
   aluAddusB4, aluSubusB4, aluAddH2, aluSubH2, aluAddsH2, aluSubsH2]

/-! ## SHF (Table OC-4) -/

def shfShl (t o : Word) : Word × Bool := plain (w32 (t.toNat * 2 ^ fld o 0 6))
def shfShr (t o : Word) : Word × Bool := plain (w32 (t.toNat / 2 ^ fld o 0 6))
def shfSar (t o : Word) : Word × Bool := plain (wOfInt (floorShr t.toInt (fld o 0 6)))
def shfRol (t o : Word) : Word × Bool :=
  plain (w32 (t.toNat * 2 ^ fld o 0 5) ||| w32 (t.toNat / 2 ^ (32 - fld o 0 5)))
def shfRor (t o : Word) : Word × Bool :=
  plain (w32 (t.toNat / 2 ^ fld o 0 5) ||| w32 (t.toNat * 2 ^ (32 - fld o 0 5)))
def shfShls (t o : Word) : Word × Bool := satW (t.toInt * 2 ^ fld o 0 6) (-2147483648) 2147483647
def shfSarr (t o : Word) : Word × Bool := plain (wOfInt (roundShr t.toInt (fld o 0 6)))
def shfShlH2 (t o : Word) : Word × Bool := lanes 2 16 (fun i => ((lane t i 16 * 2 ^ fld o 0 5 : Nat), false))
def shfShrH2 (t o : Word) : Word × Bool := lanes 2 16 (fun i => ((lane t i 16 / 2 ^ fld o 0 5 : Nat), false))
def shfSarH2 (t o : Word) : Word × Bool := lanes 2 16 (fun i => (floorShr (slane t i 16) (fld o 0 5), false))
def shfSextB (t _o : Word) : Word × Bool := plain (sext8 t.toNat)
def shfSextH (t _o : Word) : Word × Bool := plain (sext16 t.toNat)
def shfZextB (t _o : Word) : Word × Bool := plain (w32 (fld t 0 8))
def shfZextH (t _o : Word) : Word × Bool := plain (w32 (fld t 0 16))
/-- The number of leading zero bits of a number below 2^n. -/
def clzN : Nat → Nat → Nat
  | 0, _ => 0
  | n + 1, x => if 2 ^ n ≤ x then 0 else 1 + clzN n x
def shfClz (t _o : Word) : Word × Bool := plain (w32 (clzN 32 t.toNat))
def shfPack (t o : Word) : Word × Bool := plain (w32 (fld t 0 16 * 2 ^ 16 + fld o 0 16))

/-- The SHF operations in trigger order, ids 0x80 to 0x8F (Table OC-4). -/
def shfOps : List (Word → Word → Word × Bool) :=
  [shfShl, shfShr, shfSar, shfRol, shfRor, shfShls, shfSarr, shfShlH2, shfShrH2, shfSarH2, shfSextB, shfSextH,
   shfZextB, shfZextH, shfClz, shfPack]

/-! ## MUL (Table OC-5): plain products; the accumulating ones are `accFinal` of Flags -/

/-- The two halves of an exact product: MUL.r and MUL.h. -/
def halves (p : Int) : Word × Word × Bool := (wOfInt p, wOfInt (floorShr p 32), false)

def mulMul (t o : Word) : Word × Word × Bool := halves (t.toInt * o.toInt)
def mulMulu (t o : Word) : Word × Word × Bool := halves ((t.toNat : Int) * o.toNat)
def mulMulsu (t o : Word) : Word × Word × Bool := halves (t.toInt * o.toNat)
def mulMulH2 (t o : Word) : Word × Word × Bool :=
  ((lanes 2 16 (fun i => (slane t i 16 * slane o i 16, false))).1,
   (lanes 2 16 (fun i => (floorShr (slane t i 16 * slane o i 16) 16, false))).1, false)
def mulMulqH2 (t o : Word) : Word × Word × Bool :=
  let r := lanes 2 16 (fun i => sat (roundShr (slane t i 16 * slane o i 16) 15) (-32768) 32767)
  (r.1, 0, r.2)
def mulMulq (t o : Word) : Word × Word × Bool :=
  let r := satW (roundShr (t.toInt * o.toInt) 31) (-2147483648) 2147483647
  (r.1, 0, r.2)

/-- The plain products in trigger order, ids 0x90 to 0x95 (Table OC-5). -/
def mulOps : List (Word → Word → Word × Word × Bool) := [mulMul, mulMulu, mulMulsu, mulMulH2, mulMulqH2, mulMulq]

/-- The accumulator operations in trigger order, ids 0x96 to 0x9C (Table OC-5). -/
def accOps : List AccOp := [.mac, .msu, .macH2, .msuH2, .macu, .accr, .accrH]

/-! ## DIV (Table OC-6, R127): quotient, remainder, DOV, DVZ -/

/-- What every division answers when O = 0, or on the signed overflow, else by `f` (R127). -/
def divBy (signed : Bool) (f : Word → Word → Word × Word) (t o : Word) : Word × Word × Bool × Bool :=
  if o = 0 then (0xFFFFFFFF, t, false, true)
  else if signed && t == 0x80000000 && o == 0xFFFFFFFF then (0x80000000, 0, true, false)
  else ((f t o).1, (f t o).2, false, false)

/-- div: truncated toward zero. -/
def divDiv (t o : Word) : Word × Word × Bool × Bool :=
  divBy true (fun t o => (wOfInt (Int.tdiv t.toInt o.toInt), wOfInt (t.toInt - Int.tdiv t.toInt o.toInt * o.toInt))) t o
/-- divu and remu: unsigned floor. -/
def divDivu (t o : Word) : Word × Word × Bool × Bool :=
  divBy false (fun t o => (w32 (t.toNat / o.toNat), w32 (t.toNat % o.toNat))) t o
/-- rem: floored. -/
def divRem (t o : Word) : Word × Word × Bool × Bool :=
  divBy true (fun t o => (wOfInt (Int.fdiv t.toInt o.toInt), wOfInt (t.toInt - Int.fdiv t.toInt o.toInt * o.toInt))) t o
def divRemu (t o : Word) : Word × Word × Bool × Bool := divDivu t o

/-- The divisions in trigger order, ids 0xA0 to 0xA3 (Table OC-6). -/
def divOps : List (Word → Word → Word × Word × Bool × Bool) := [divDiv, divDivu, divRem, divRemu]

/-! ## PRED (Table OC-7) -/

def prdEq (t o : Word) : Bool := t == o
def prdNe (t o : Word) : Bool := t != o
def prdLt (t o : Word) : Bool := decide (t.toInt < o.toInt)
def prdLtu (t o : Word) : Bool := decide (t.toNat < o.toNat)
def prdLe (t o : Word) : Bool := decide (t.toInt ≤ o.toInt)
def prdLeu (t o : Word) : Bool := decide (t.toNat ≤ o.toNat)
def prdGt (t o : Word) : Bool := decide (o.toInt < t.toInt)
def prdGtu (t o : Word) : Bool := decide (o.toNat < t.toNat)
def prdGe (t o : Word) : Bool := decide (o.toInt ≤ t.toInt)
def prdGeu (t o : Word) : Bool := decide (o.toNat ≤ t.toNat)
def prdTst (t o : Word) : Bool := (t &&& o) != 0
def prdBit (t o : Word) : Bool := tb t (fld o 0 5)

/-- The comparisons in trigger order, ids 0xA4 to 0xAF (Table OC-7). -/
def prdOps : List (Word → Word → Bool) :=
  [prdEq, prdNe, prdLt, prdLtu, prdLe, prdLeu, prdGt, prdGtu, prdGe, prdGeu, prdTst, prdBit]

/-! ## Starting an operation in the current issue cycle (R50, R52, R105) -/

/-- ALU `u` starts `f` on T, with O from its operand socket. -/
def Hearth.alu (h : Hearth) (u : Fin 2) (f : Word → Word → Word × Bool) (t : Word) : Hearth :=
  let r := f t (h.opnd (0x28 + u.val))
  h.fly (if u = 0 then .alu0 else .alu1) 1 (.one (fin 15 u.val) r.1) r.2 false false

/-- SHF starts `f` on T. -/
def Hearth.shf (h : Hearth) (f : Word → Word → Word × Bool) (t : Word) : Hearth :=
  let r := f t (h.opnd 0x2A)
  h.fly .shf 1 (.one 2 r.1) r.2 false false

/-- MUL starts a plain product of latency `l`. -/
def Hearth.mulp (h : Hearth) (l : Nat) (f : Word → Word → Word × Word × Bool) (t : Word) : Hearth :=
  let r := f t (h.opnd 0x2B)
  h.fly .mul l (.two 3 4 r.1 r.2.1) r.2.2 false false

/-- MUL starts an accumulator operation of latency `l`, computed in its final stage (R120). -/
def Hearth.mulAcc (h : Hearth) (l : Nat) (op : AccOp) (t : Word) : Hearth :=
  h.fly .mul l (.acc op t (h.opnd 0x2B)) false false false

/-- DIV starts a division of latency `l`. -/
def Hearth.dvd (h : Hearth) (l : Nat) (f : Word → Word → Word × Word × Bool × Bool) (t : Word) : Hearth :=
  let r := f t (h.opnd 0x2D)
  h.fly .div l (.two 5 6 r.1 r.2.1) false r.2.2.1 r.2.2.2

/-- PRED starts a comparison. -/
def Hearth.prd (h : Hearth) (f : Word → Word → Bool) (t : Word) : Hearth :=
  h.fly .pred 1 (.one 7 (if f t (h.opnd 0x2E) then 1 else 0)) false false false

end Sys2Proof.Machine
end

