-- ==== Sys2Proof/Machine/Csr.lean ====
section
/-!
DEFINITION. What a hearth reaches at local 0xE000 to 0xFFFF: the slice header (10 R273, R274), the port file
(13 R378), and the hearth control registers with the rights of 07 Table WG-1, WG-5 and R185, 08 R249 and 09 R270.
-/
namespace Sys2Proof.Machine
open Sys2Proof

/-! ## The slice header (10 R273) -/

/-- Words 0 to 3 of the header of slice `h`, read from frame `f` as page `page`. -/
def State.header (s : State) (h : Hid) (f : Fin 3) (page : Nat) (sealed stale : Bool) (w : Nat) : Word :=
  let v := tb (s.rd32 (frameKey f h 4)) 16
  if w = 0 then (if v then s.rd32 (frameKey f h 0) else 0)
  else if w = 1 then (if v then s.rd32 (frameKey f h 4) else w32 (h.val * 2 ^ 24))
  else if w = 2 then w32 page
  else w32 (page / 2 ^ 32 % 2 ^ 16 + s.nodeId.toNat * 2 ^ 18) ||| bitAt sealed 16 ||| bitAt stale 17

/-- Whether page `n` has been sealed, and whether this device is in its stale list (10 R273, R290). -/
def Ep.sealedPage (e : Ep) (n : Nat) : Bool := e.pgS == some n || e.pgS1 == some n
def Ep.stalePage (e : Ep) (n : Nat) : Bool :=
  if e.pgS == some n then e.staleS else e.pgS1 == some n && e.staleS1

/-- Header word `w` of a hearth's slice as the committed view shows it; 0 before the first committed page (R274). -/
def State.draftHeader (s : State) (h : Hid) (w : Nat) : Word :=
  match s.ep.pgC, s.ep.maps[h].c with
  | some n, some f => s.header h f n (s.ep.sealedPage n) (s.ep.stalePage n) w
  | _, _ => 0

/-! ## The port file (13 R377, R378) -/

/-- A message waits in a mailbox whose receiver is hearth `h`. -/
def State.boxFor (s : State) (h : Hid) (n : Nat) : Bool :=
  !(s.hub.boxes[fin 128 n]).isEmpty && mbRcv (s.mbcfg n) == h

/-- Whether a mode may fetch from mailbox `n` by its channel (13 Table MB-1). -/
def boxWorld (cfg : Word) (n : Nat) (m : Mode) : Bool :=
  if n < 64 then m == .pu || m == .ps || m == .gs
  else if n < 96 then isG m
  else isG m == mbG cfg

/-- A word of the port file (Table MB-3); a P-mode read returns 0 in the bits of G doorbells and of mailboxes its
world may not fetch. -/
def State.portRead (s : State) (h : Hid) (o : Nat) (m : Mode) : Word :=
  let db := (s.hearth h).doorbell
  if o = 0 then w32 db.toNat
  else if o = 4 then w32 (db.toNat / 2 ^ 32 % (if isG m then 2 ^ 32 else 2 ^ 16))
  else if within 0x10 o 0x1C then
    (List.range 32).foldl (fun r i =>
      let n := (o - 0x10) / 4 * 32 + i
      if s.boxFor h n && (isG m || boxWorld (s.mbcfg n) n m) then r ||| w32 (2 ^ i) else r) 0
  else 0

/-- Doorbell bits cleared; a P mode leaves bits 48 to 63 unchanged (R377). -/
def Hearth.clearDb (h : Hearth) (mask : Nat) (m : Mode) : Hearth :=
  let k := if isG m then mask else mask % 2 ^ 48
  { h with doorbell := h.doorbell &&& ~~~(BitVec.ofNat 64 k) }

/-- A word written to the port file, in the mode its store carries (05 R152). -/
def State.portWrite (s : State) (h : Hid) (o : Nat) (v : Word) (m : Mode) : State :=
  if o = 0 then s.modHearth h (fun x => x.clearDb v.toNat m)
  else if o = 4 then s.modHearth h (fun x => x.clearDb (v.toNat * 2 ^ 32) m)
  else s

/-! ## Rights to hearth control registers -/

/-- Registers of the fulling unit and of assimilation that only GS may write (08 R249, 09 R270). -/
def fulGsOnly (o : Nat) : Bool := within 0x448 o 0x460 || o == 0x498

/-- Interrupt-controller registers that only GS reads (07 Table WG-5). -/
def icGsOnly (o : Nat) : Bool :=
  o == 0x120 || o == 0x128 || o == 0x12C || o == 0x134 || o == 0x138 || o == 0x13C || o == 0x148

/-- Whether mode `m` may read the register at `o` (Table WG-1, Table WG-5, R185, R249). -/
def csrMayRead (m : Mode) (o : Nat) : Bool :=
  if within 0x14 o 0x20 || within 0x40 o 0x44 then isSup m
  else if within 0x60 o 0x64 then m == .gs
  else if within 0x68 o 0x6C then isSup m
  else if icGsOnly o then m == .gs
  else if o == 0x124 || o == 0x130 || o == 0x144 then isSup m
  else if within 0x200 o 0x2FF then isSup m
  else true

/-- Whether mode `m` may write the register at `o`. A register that grants reading only refuses a write (R185). -/
def csrMayWrite (m : Mode) (o : Nat) : Bool :=
  if o == 0 || o == 0x0C || within 0x38 o 0x3C || within 0x48 o 0x50 || within 0x58 o 0x5C then false
  else if within 0x04 o 0x08 || within 0x14 o 0x20 || within 0x40 o 0x44 then isSup m
  else if within 0x60 o 0x64 then m == .gs
  else if within 0x68 o 0x6C then isSup m
  else if icGsOnly o || o == 0x108 || o == 0x130 then m == .gs
  else if within 0x100 o 0x1FF then isSup m
  else if within 0x200 o 0x2FF then m == .gs
  else if within 0x400 o 0x4FF then (if fulGsOnly o then m == .gs else isSup m)
  else true

/-! ## Reading -/

/-- The lines routed to G (07 R185): ICWLD with bits 29 to 31 fixed at 1. -/
def Hearth.icwld (h : Hearth) : Word := h.rd 0x108 ||| 0xE0000000

/-- The lines the world of a mode may see: all for G, those routed to P for P (R185). -/
def Hearth.lineMask (h : Hearth) (m : Mode) : Word := if isG m then 0xFFFFFFFF else ~~~h.icwld

/-- The bits of ICPRIk that belong to lines a mode may see, lines 30 and 31 excepted (Table WG-5). -/
def Hearth.priMask (h : Hearth) (m : Mode) (k : Nat) : Word :=
  (List.range 8).foldl (fun r j =>
    if tb (h.lineMask m) (8 * k + j) && decide (8 * k + j < 30) then r ||| w32 (7 * 2 ^ (4 * j)) else r) 0

/-- The pending lines: event bits, and the conditions of lines 0 and 1 (07 R193). -/
def State.icpend (s : State) (h : Hid) : Word :=
  let x := s.hearth h
  setBit (setBit x.icpend 0 (x.doorbell != 0)) 1 ((List.range 128).any (fun n => s.boxFor h n))

/-- IMPL of MLAT: the classes this stepping implements (05, MLAT). -/
def implOf (p : Stepping) : Nat :=
  match p with
  | .a1 => 1
  | .b0 => 3

/-- ICST as it reads; a P-world read gives 0 in LINE and LV when the line is routed to G (R185). -/
def Hearth.icst (h : Hearth) (m : Mode) : Word :=
  let see := tb (h.lineMask m) h.line.toNat
  bitAt h.wfp 0 ||| bitAt h.wfg 1 ||| bitAt h.gsh 2
    ||| (if see then w32 (h.line.toNat * 2 ^ 8) ||| bitAt h.lv 15 else 0)

/-- A fulling request is executing; the requests queued behind it (08, FSTAT). -/
def Hearth.fstat (h : Hearth) : Word :=
  (h.rd 0x40C &&& 0x3F00) ||| bitAt (!h.ful.isEmpty) 0 ||| w32 ((h.ful.length - 1) % 16 * 16)

/-- The value of a hearth control register, read in mode `m`. -/
def State.csr (s : State) (h : Hid) (o : Nat) (m : Mode) : Word :=
  let x := s.hearth h
  if o = 0x000 then w32 (h.val + localIx h * 2 ^ 6 + (stackOf h).val * 2 ^ 9)
  else if o = 0x004 then x.hsr
  else if o = 0x00C then w32 ((s.stack (stackOf h)).lc.toNat + implOf Config.stepping * 2 ^ 8)
  else if o = 0x020 then x.pbr
  else if o = 0x024 then x.lps
  else if o = 0x028 then x.lpe
  else if o = 0x02C then x.lpc
  else if o = 0x030 then x.lpa
  else if o = 0x034 then x.repc
  else if o = 0x038 then w32 x.clk
  else if o = 0x03C then x.cych
  else if o = 0x040 then x.stallc
  else if o = 0x044 then x.waitc
  else if o = 0x048 then x.ott
  else if o = 0x060 then x.sp[2]
  else if o = 0x064 then x.sp[3]
  else if o = 0x068 then x.sp[0]
  else if o = 0x06C then x.sp[1]
  else if o = 0x084 then bitAt x.armed 0 ||| (x.rd 0x084 &&& 2)
  else if o = 0x100 then s.icpend h &&& x.lineMask m
  else if o = 0x104 then (x.rd 0x104 ||| 0xC0000000) &&& x.lineMask m
  else if o = 0x108 then x.icwld &&& x.lineMask m
  else if o = 0x10C then 0
  else if within 0x110 o 0x11C then x.rd o &&& x.priMask m ((o - 0x110) / 4)
  else if o = 0x140 then x.icst m
  else if o = 0x40C then x.fstat
  else x.rd o

/-- The RC registers of a hearth: counters that a read clears (00 R10). -/
def csrRc (o : Nat) : Bool := o == 0x414 || o == 0x418 || o == 0x440 || o == 0x464 || o == 0x4C4

/-- What a read of a hearth control register changes: an RC counter is cleared, CYCL latches CYCH (R10, Table OM-10). -/
def Hearth.csrReadFx (h : Hearth) (o : Nat) : Hearth :=
  if csrRc o then h.wr o 0
  else if o = 0x038 then { h with cych := w32 (h.clk / 2 ^ 32) }
  else h

/-! ## Writing -/

/-- The bits of the field at `o` that a write sets (access RW), for registers held as plain words. -/
def csrRwMask (o : Nat) : Word :=
  if o = 0x008 then 7 else if o = 0x010 then 0x31F else if o = 0x014 then 0x7FFF else if o = 0x01C then 0x7F80
  else if o = 0x080 then 0xFFFFFFFF else if o = 0x104 then 0x3FFFFFFF else if o = 0x108 then 0x1FFFFFFF
  else if within 0x110 o 0x118 then 0x77777777 else if o = 0x11C then 0x00777777
  else if o = 0x120 then 7 else if o = 0x124 then 0x7FFC else if o = 0x128 then 0x7FFC
  else if o = 0x12C then 0x7F80 else if o = 0x130 then 0x7F80 else if o = 0x134 then 0x7F80 else if o = 0x138 then 0x7FFF
  else if within 0x200 o 0x2BF then ((if (o - 0x200) % 12 = 8 then 0x3FF else 0xFFFFFFE0 : Word))
  else if o = 0x400 then 0x1FFF0FFF else if o = 0x404 then 0x7FF else if o = 0x408 then 3
  else if within 0x420 o 0x43C then 0xFFFFFFFF
  else if within 0x448 o 0x454 then 0x80003FFF else if o = 0x458 then 0x7FF else if o = 0x45C then 0xFFFF
  else if o = 0x460 then 0x107 else if o = 0x480 then 3 else if o = 0x484 then 0x00FF007F
  else if o = 0x488 then 0xFFFFFFFF else if o = 0x48C then 0xFFFF else if o = 0x490 then 0x80FFFFFF
  else if o = 0x494 then 0xFF else if o = 0x498 then 1 else if within 0x4A0 o 0x4AC then 0xFFFFFFFF
  else if within 0x4B0 o 0x4BC then 0xFFFFFFFF else 0

/-- The RW bits of every register, the ones held elsewhere included: what csrs and csrc act on (05 R151). -/
def csrSetMask (o : Nat) : Word :=
  if o = 0x004 then 7 else if o = 0x02C then 0xFFFF else if o = 0x034 then 0xFFFF
  else if within 0x060 o 0x06C then 0xFFFFFFFF else csrRwMask o

/-- The W1C and W1S bits of every register. -/
def csrW1Mask (o : Nat) : Word :=
  if o = 0x004 then 0x700 else if o = 0x040 || o = 0x044 || o = 0x100 then 0xFFFFFFFF
  else if o = 0x084 then 2 else if o = 0x40C then 0x3F00 else if o = 0x4C0 then 0x3F
  else if within 0x200 o 0x2BF && (o - 0x200) % 12 == 8 then 0x400 else 0

/-- The mask of writable bits of a plain register in a mode: HCTL.PSWE from GS alone, lines of G from G alone. -/
def Hearth.wrMaskIn (h : Hearth) (o : Nat) (m : Mode) : Word :=
  if o = 0x008 then (if m == .gs then 7 else 5)
  else if o = 0x104 || o = 0x108 then csrRwMask o &&& h.lineMask m
  else if within 0x110 o 0x11C then csrRwMask o &&& h.priMask m ((o - 0x110) / 4)
  else csrRwMask o

/-- A value about to be stored in a plain register, with reserved encodings left out, numbers beyond the range of a field
among them (00 R12; log entry 22), and the least values the spec names (08 R232, R244). -/
def Hearth.legal (h : Hearth) (o : Nat) (v : Word) : Word :=
  if o = 0x010 && decide (19 < fld v 0 5) then putF v 0 5 (fld (h.rd o) 0 5)
  else if o = 0x400 && decide (4096 < fld v 16 13) then putF v 16 13 (fld (h.rd o) 16 13)
  else if o = 0x404 && decide (1024 < fld v 0 11) then h.rd o
  else if o = 0x484 && decide (128 < fld v 16 8) then putF v 16 8 (fld (h.rd o) 16 8)
  else if o = 0x408 && fld v 0 2 == 3 then h.rd o
  else if within 0x420 o 0x43C && v == 0 then 1
  else if o = 0x45C && decide (v.toNat < 36) then 36
  else v

/-- Whether a fulling run is in progress: a write to FNSm then takes effect after it (08 R232). -/
def Hearth.fulRunning (h : Hearth) : Bool :=
  match h.ful with
  | [] => false
  | r :: _ => r.started && !r.done && (r.kind == .run 3 || r.phase == 0 || r.phase == 2)

/-- A write to a brim region register: its RWL fields are open until BRATTn.LK (07 R187). -/
def Hearth.writeBrim (h : Hearth) (o : Nat) (v : Word) : Hearth :=
  let att := 0x208 + (o - 0x200) / 12 * 12
  let lk := tb (h.rd att) 10
  let h1 := if lk then h else h.wr o (blend (h.rd o) v (csrRwMask o))
  if o = att && tb v 10 then h1.wr att (setBit (h1.rd att) 10 true) else h1

/-- A write of `v` to a hearth control register, in mode `m`, which has the right (05 Table OM-10 and the others). -/
def State.csrWrite (s : State) (h : Hid) (o : Nat) (v : Word) (m : Mode) : State :=
  s.modHearth h (fun x =>
    if o = 0x004 then x.writeHsr v
    else if o = 0x02C then { x with lpc := blend x.lpc v 0xFFFF }
    else if o = 0x034 then { x with repc := blend x.repc v 0xFFFF }
    else if o = 0x040 then { x with stallc := x.stallc &&& ~~~v }
    else if o = 0x044 then { x with waitc := x.waitc &&& ~~~v }
    else if o = 0x060 then x.setSp .gu v
    else if o = 0x064 then x.setSp .gs v
    else if o = 0x068 then x.setSp .pu v
    else if o = 0x06C then x.setSp .ps v
    else if o = 0x084 then x.wr 0x084 (x.rd 0x084 &&& ~~~(v &&& 2))
    else if o = 0x100 then
      { x with icpend := x.icpend &&& ~~~(v &&& x.lineMask m &&& (if m == .gs then 0xFFFFFFFF else 0x3FFFFFFF)) }
    else if o = 0x10C then { x with icpend := x.icpend ||| (v &&& 0x00FF0000 &&& x.lineMask m) }
    else if within 0x200 o 0x2BF then x.writeBrim o v
    else if o = 0x40C then
      (let y := x.wr 0x40C (x.rd 0x40C &&& ~~~(v &&& 0x3F00))
       if tb v 8 then y.wr 0x410 0 else y)
    else if o = 0x4C0 then x.wr 0x4C0 (x.rd 0x4C0 &&& ~~~(v &&& 0x3F))
    else if within 0x420 o 0x43C && x.fulRunning then { x with fnsLate := x.fnsLate ++ [(o, x.legal o v)] }
    else if csrRwMask o = 0 then x
    else x.wr o (x.legal o (blend (x.rd o) v (x.wrMaskIn o m))))

/-! ## The brim (07 R187, R188) -/

/-- The first byte and the last byte of region `n`. -/
def Hearth.brimLo (h : Hearth) (n : Nat) : Nat := fld (h.rd (0x200 + 12 * n)) 5 27 * 32
def Hearth.brimHi (h : Hearth) (n : Nat) : Nat := fld (h.rd (0x204 + 12 * n)) 5 27 * 32 + 31
def Hearth.brimAtt (h : Hearth) (n : Nat) : Word := h.rd (0x208 + 12 * n)

/-- The deciding region: the lowest enabled one of the space that covers byte `f`. -/
def Hearth.brimRegion (h : Hearth) (glob : Bool) (f : Nat) : Option Nat :=
  (List.range 16).find? (fun n =>
    tb (h.brimAtt n) 9 && tb (h.brimAtt n) 8 == glob && decide (h.brimLo n ≤ f) && decide (f ≤ h.brimHi n))

/-- Whether a region's rights grant a mode the reads and writes of an access. -/
def Hearth.brimGrants (h : Hearth) (n : Nat) (m : Mode) (rd wr : Bool) : Bool :=
  (!rd || tb (h.brimAtt n) (2 * (modeNo m).val)) && (!wr || tb (h.brimAtt n) (2 * (modeNo m).val + 1))

/-- The check of R188. -/
def Hearth.brimOk (h : Hearth) (glob : Bool) (f l : Nat) (rd wr : Bool) (m : Mode) : Bool :=
  match h.brimRegion glob f with
  | none => m == .gs
  | some n => decide (l ≤ h.brimHi n) && h.brimGrants n m rd wr

/-- A brim fault is recorded in BRFA and BRFI (R187, R188). No region decides about local 0xF000 and above, where the
rights of R185 do: such a fault is recorded with NONE (DEDUCED, log entry 25). -/
def Hearth.brimRecord (h : Hearth) (glob : Bool) (f : Nat) (wr : Bool) (m : Mode) : Hearth :=
  let r := if !glob && decide (0xF000 ≤ f) then none else h.brimRegion glob f
  (h.wr 0x2C0 (w32 f)).wr 0x2C4
    (w32 (r.getD 0 + (modeNo m).val * 2 ^ 8) ||| bitAt r.isNone 4 ||| bitAt wr 5 ||| bitAt glob 6)

end Sys2Proof.Machine
end

