-- ==== Sys2Proof/Machine/Cycle.lean ====
section
/-!
DEFINITION. The cycles of a hearth: the drain of the near store buffer (06 R162, 05 R152), a stall cycle (06 R158,
R159), an extra cycle (03 R86), and the end of an issue cycle (03 R52, 04 R110, R120, R121).
-/
namespace Sys2Proof.Machine
open Sys2Proof

/-- What a meaning answers: the next state. -/
abbrev Out := Host.Outcome State Fault Refusal

/-- One buffered store reaches its target, judged in the mode it carries (R152); the felt
is written on port A (08 R246). -/
def State.drainEntry (s : State) (h : Hid) (e : SbEntry) : State :=
  if e.addr < 0xF000 then (if inFelt e.key then s.portA h (feltOff e.key) e.data e.mask else s.wrMask e.key e.data e.mask)
  else if e.addr < 0xF800 then s.portWrite h (e.addr - 0xF000) e.data e.mode
  else s.csrWrite h (e.addr - 0xF800) e.data e.mode

/-- The oldest entry of the near store buffer is written to its target and removed (R162). -/
def State.drain (s : State) (h : Hid) : State :=
  match (s.hearth h).sb with
  | [] => s
  | e :: r => (s.modHearth h (fun x => { x with sb := r })).drainEntry h e

/-- `n` drains, as of `n` cycles without an issue. -/
def State.drainN (s : State) (h : Hid) : Nat → State
  | 0 => s
  | n + 1 => (s.drain h).drainN h n

/-- The divider advances one step in a cycle in which its own busy state holds the word (04 R128). -/
def Hearth.divStep (h : Hearth) : Hearth :=
  let h1 : Hearth :=
    { h with flights := h.flights.map (fun f => if f.unit == FUnit.div then { f with due := f.due - 1 } else f) }
  h1.landDue h.ic

/-- A cycle in which a word is held by a stall cause: STALLC counts, the buffer drains, and the divider advances if
it is the cause (R158, R159). -/
def State.stallCycle (s : State) (h : Hid) (div : Bool) : State :=
  (s.drain h).modHearth h (fun x =>
    let y := { x with clk := x.clk + 1, stallc := x.stallc + 1 }
    if div then y.divStep else y)

def State.stallN (s : State) (h : Hid) : Nat → State
  | 0 => s
  | n + 1 => (s.stallCycle h false).stallN h n

/-- A cycle of a wait: WAITC counts and the buffer drains (05 R155). -/
def State.waitCycle (s : State) (h : Hid) : State :=
  (s.drain h).modHearth h (fun x => { x with clk := x.clk + 1, waitc := x.waitc + 1 })

/-- The issue cycle of a word starts: the masks that govern the boundary after it (07 R195). -/
def State.startIssue (s : State) (h : Hid) : State :=
  s.modHearth h (fun x => { x with mlDec := x.ml, gmlDec := BitVec.ofNat 3 (fld (x.rd 0x120) 0 3), mlHeld := false })

/-- `n` cycles without an issue that count in neither counter: extra cycles of supply, entries, returns (R86, R197). -/
def State.extraCycles (s : State) (h : Hid) (n : Nat) : State :=
  (s.drainN h n).modHearth h (fun x => { x with clk := x.clk + n })

/-- The end of an issue cycle: the oldest buffered store is written, results due become visible and set their sticky
bits, a write of MUL.a prevails over an update of ACC (R121), and the cycle's own stores enter the buffer. -/
def Hearth.endIssue (h : Hearth) : Hearth :=
  let y := h.landDue (h.ic + 1)
  let a : BitVec 48 := match h.accNew with
    | none => y.acc
    | some v => BitVec.ofInt 48 v.toInt
  { y with acc := a, accNew := none, sb := y.sb ++ y.sbNew, sbNew := [], ic := y.ic + 1, clk := y.clk + 1 }

def State.endCycle (s : State) (h : Hid) : State := (s.drain h).modHearth h Hearth.endIssue

/-- An entry is asked for, unless one is already waiting (07 R190). -/
def Hearth.ask (h : Hearth) (e : EntryReq) : Hearth :=
  match h.entry with
  | none => { h with entry := some e }
  | some _ => h

/-- A precise fault of level `l` on the word at the PC: saved PC and PBR as in 07 Table WG-9. -/
def Hearth.precise (h : Hearth) (l : Nat) (cause info : Byte) : Hearth :=
  h.ask ⟨.fault l, cause, info, h.pc, h.pbrV, h.pbrRem, h.pbrV⟩

/-- The level of a precise fault's cause (07 Table WG-2). -/
def levelOf (cause : Byte) : Nat := if cause = 0x06 || cause = 0x0B then 6 else 7

def State.preciseFault (s : State) (h : Hid) (cause : Byte) : State :=
  s.modHearth h (fun x => x.precise (levelOf cause) cause 0)

/-! ## The meanings of the cycle -/

/-- OPERATION_RESULT (R52): the current issue cycle ends, and every result due becomes visible. The masks that govern the
next boundary are those at the start of the cycle, which a SYS command of this cycle has kept if it wrote one (07 R195). -/
def execOperationResult (h : Hid) (s : State) : Out :=
  if !s.stackRuns (stackOf h) then .next s
  else
    let s1 := if (s.hearth h).mlHeld then s.modHearth h (fun x => { x with mlHeld := false }) else s.startIssue h
    .next (s1.endCycle h)

/-- NEAR_STORE_DRAIN (R162): in a cycle without an issue, the oldest buffered store reaches its target. -/
def execNearStoreDrain (h : Hid) (s : State) : Out :=
  if !s.stackRuns (stackOf h) then .next s
  else .next ((s.drain h).modHearth h (fun x => { x with sb := x.sb ++ x.sbNew, sbNew := [] }))

end Sys2Proof.Machine
end

