-- ==== Sys2Proof/Machine/Arith.lean ====
section
/-!
DEFINITION. The compute rows (04): each starts its operation in the hearth's current issue cycle, with T as the
operand and O from the unit's operand socket; its result lands L issue cycles later (03 R52).
-/
namespace Sys2Proof.Machine
open Sys2Proof

/-- An ALU trigger on ALU `u`. -/
def State.aluRow (s : State) (h : Hid) (u : Fin 2) (f : Word → Word → Word × Bool) (t : Word) : Out :=
  .next (s.modHearth h (fun x => x.alu u f t))

/-- A SHF trigger. -/
def State.shfRow (s : State) (h : Hid) (f : Word → Word → Word × Bool) (t : Word) : Out :=
  .next (s.modHearth h (fun x => x.shf f t))

/-- A PRED trigger. -/
def State.prdRow (s : State) (h : Hid) (f : Word → Word → Bool) (t : Word) : Out :=
  .next (s.modHearth h (fun x => x.prd f t))

/-- A row whose pipeline entry is not free is held for a cycle (06 R170). -/
def State.tracked (s : State) (h : Hid) (f : State → State) : Out :=
  if 48 ≤ (s.hearth h).ottUsed then .next (s.stallCycle h false) else .next (f s)

/-- A plain product of MUL. -/
def State.mulRow (s : State) (h : Hid) (f : Word → Word → Word × Word × Bool) (t : Word) : Out :=
  s.tracked h (fun s => s.modHearth h (fun x => x.mulp (s.mulL h) f t))

/-- An accumulator operation of MUL. -/
def State.accRow (s : State) (h : Hid) (op : AccOp) (t : Word) : Out :=
  s.tracked h (fun s => s.modHearth h (fun x => x.mulAcc (s.mulL h) op t))

/-- The cycles for which the divider holds a new trigger (R128). -/
def Hearth.divWait (h : Hearth) : Nat :=
  (h.flights.filter (fun f => f.unit == .div)).foldl (fun n f => max n (f.due - h.ic)) 0

/-- The stall of a busy divider, cycle by cycle (R128). -/
def State.divStall (s : State) (h : Hid) : Nat → State
  | 0 => s
  | n + 1 => (s.stallCycle h true).divStall h n

/-- A DIV trigger at its issue: with HCTL.DZF set and O = 0 it sets DVZ and faults, else it starts (R127, R129). -/
def State.divFire (s : State) (h : Hid) (f : Word → Word → Word × Word × Bool × Bool) (t : Word) : State :=
  s.modHearth h (fun x =>
    if tb (x.rd 0x008) 0 && x.opnd 0x2D == 0 then ({ x with dvz := true } : Hearth).precise 6 0x06 0 else x.dvd (s.divL h) f t)

/-- A DIV trigger: it stalls while the divider is busy, and then issues. -/
def State.divRow (s : State) (h : Hid) (f : Word → Word → Word × Word × Bool × Bool) (t : Word) : Out :=
  let s1 := s.divStall h (s.hearth h).divWait
  s1.tracked h (fun s => s.divFire h f t)

/-- ADD (R114, Table OC-3). -/
def execAdd (h : Hid) (u : Fin 2) (t : Word) (s : State) : Out := s.aluRow h u aluAdd t
/-- SUB (R114, Table OC-3). -/
def execSub (h : Hid) (u : Fin 2) (t : Word) (s : State) : Out := s.aluRow h u aluSub t
/-- RSUB (R114, Table OC-3). -/
def execRsub (h : Hid) (u : Fin 2) (t : Word) (s : State) : Out := s.aluRow h u aluRsub t
/-- ADDCY (R114, Table OC-3). -/
def execAddcy (h : Hid) (u : Fin 2) (t : Word) (s : State) : Out := s.aluRow h u aluAddcy t
/-- SUBBW (R114, Table OC-3). -/
def execSubbw (h : Hid) (u : Fin 2) (t : Word) (s : State) : Out := s.aluRow h u aluSubbw t
/-- ADDS (R114, Table OC-3). -/
def execAdds (h : Hid) (u : Fin 2) (t : Word) (s : State) : Out := s.aluRow h u aluAdds t
/-- SUBS (R114, Table OC-3). -/
def execSubs (h : Hid) (u : Fin 2) (t : Word) (s : State) : Out := s.aluRow h u aluSubs t
/-- ADDUS (R114, Table OC-3). -/
def execAddus (h : Hid) (u : Fin 2) (t : Word) (s : State) : Out := s.aluRow h u aluAddus t
/-- SUBUS (R114, Table OC-3). -/
def execSubus (h : Hid) (u : Fin 2) (t : Word) (s : State) : Out := s.aluRow h u aluSubus t
/-- AND (R114, Table OC-3). -/
def execAnd (h : Hid) (u : Fin 2) (t : Word) (s : State) : Out := s.aluRow h u aluAnd t
/-- OR (R114, Table OC-3). -/
def execOr (h : Hid) (u : Fin 2) (t : Word) (s : State) : Out := s.aluRow h u aluOr t
/-- XOR (R114, Table OC-3). -/
def execXor (h : Hid) (u : Fin 2) (t : Word) (s : State) : Out := s.aluRow h u aluXor t
/-- ANDN (R114, Table OC-3). -/
def execAndn (h : Hid) (u : Fin 2) (t : Word) (s : State) : Out := s.aluRow h u aluAndn t
/-- NOT (R114, Table OC-3). -/
def execNot (h : Hid) (u : Fin 2) (t : Word) (s : State) : Out := s.aluRow h u aluNot t
/-- NEG (R114, Table OC-3). -/
def execNeg (h : Hid) (u : Fin 2) (t : Word) (s : State) : Out := s.aluRow h u aluNeg t
/-- NEGS (R114, Table OC-3). -/
def execNegs (h : Hid) (u : Fin 2) (t : Word) (s : State) : Out := s.aluRow h u aluNegs t
/-- ABS (R114, Table OC-3). -/
def execAbs (h : Hid) (u : Fin 2) (t : Word) (s : State) : Out := s.aluRow h u aluAbs t
/-- ABSS (R114, Table OC-3). -/
def execAbss (h : Hid) (u : Fin 2) (t : Word) (s : State) : Out := s.aluRow h u aluAbss t
/-- MIN (R114, Table OC-3). -/
def execMin (h : Hid) (u : Fin 2) (t : Word) (s : State) : Out := s.aluRow h u aluMin t
/-- MAX (R114, Table OC-3). -/
def execMax (h : Hid) (u : Fin 2) (t : Word) (s : State) : Out := s.aluRow h u aluMax t
/-- MINU (R114, Table OC-3). -/
def execMinu (h : Hid) (u : Fin 2) (t : Word) (s : State) : Out := s.aluRow h u aluMinu t
/-- MAXU (R114, Table OC-3). -/
def execMaxu (h : Hid) (u : Fin 2) (t : Word) (s : State) : Out := s.aluRow h u aluMaxu t
/-- PASS (R114, Table OC-3). -/
def execPass (h : Hid) (u : Fin 2) (t : Word) (s : State) : Out := s.aluRow h u aluPass t
/-- ADD_B4 (R114, Table OC-3). -/
def execAddB4 (h : Hid) (u : Fin 2) (t : Word) (s : State) : Out := s.aluRow h u aluAddB4 t
/-- SUB_B4 (R114, Table OC-3). -/
def execSubB4 (h : Hid) (u : Fin 2) (t : Word) (s : State) : Out := s.aluRow h u aluSubB4 t
/-- ADDUS_B4 (R114, Table OC-3). -/
def execAddusB4 (h : Hid) (u : Fin 2) (t : Word) (s : State) : Out := s.aluRow h u aluAddusB4 t
/-- SUBUS_B4 (R114, Table OC-3). -/
def execSubusB4 (h : Hid) (u : Fin 2) (t : Word) (s : State) : Out := s.aluRow h u aluSubusB4 t
/-- ADD_H2 (R114, Table OC-3). -/
def execAddH2 (h : Hid) (u : Fin 2) (t : Word) (s : State) : Out := s.aluRow h u aluAddH2 t
/-- SUB_H2 (R114, Table OC-3). -/
def execSubH2 (h : Hid) (u : Fin 2) (t : Word) (s : State) : Out := s.aluRow h u aluSubH2 t
/-- ADDS_H2 (R114, Table OC-3). -/
def execAddsH2 (h : Hid) (u : Fin 2) (t : Word) (s : State) : Out := s.aluRow h u aluAddsH2 t
/-- SUBS_H2 (R114, Table OC-3). -/
def execSubsH2 (h : Hid) (u : Fin 2) (t : Word) (s : State) : Out := s.aluRow h u aluSubsH2 t
/-- SHL (R117, Table OC-4). -/
def execShl (h : Hid) (t : Word) (s : State) : Out := s.shfRow h shfShl t
/-- SHR (R117, Table OC-4). -/
def execShr (h : Hid) (t : Word) (s : State) : Out := s.shfRow h shfShr t
/-- SAR (R117, Table OC-4). -/
def execSar (h : Hid) (t : Word) (s : State) : Out := s.shfRow h shfSar t
/-- ROL (R117, Table OC-4). -/
def execRol (h : Hid) (t : Word) (s : State) : Out := s.shfRow h shfRol t
/-- ROR (R117, Table OC-4). -/
def execRor (h : Hid) (t : Word) (s : State) : Out := s.shfRow h shfRor t
/-- SHLS (R117, Table OC-4). -/
def execShls (h : Hid) (t : Word) (s : State) : Out := s.shfRow h shfShls t
/-- SARR (R117, Table OC-4). -/
def execSarr (h : Hid) (t : Word) (s : State) : Out := s.shfRow h shfSarr t
/-- SHL_H2 (R117, Table OC-4). -/
def execShlH2 (h : Hid) (t : Word) (s : State) : Out := s.shfRow h shfShlH2 t
/-- SHR_H2 (R117, Table OC-4). -/
def execShrH2 (h : Hid) (t : Word) (s : State) : Out := s.shfRow h shfShrH2 t
/-- SAR_H2 (R117, Table OC-4). -/
def execSarH2 (h : Hid) (t : Word) (s : State) : Out := s.shfRow h shfSarH2 t
/-- SEXT_B (R117, Table OC-4). -/
def execSextB (h : Hid) (t : Word) (s : State) : Out := s.shfRow h shfSextB t
/-- SEXT_H (R117, Table OC-4). -/
def execSextH (h : Hid) (t : Word) (s : State) : Out := s.shfRow h shfSextH t
/-- ZEXT_B (R117, Table OC-4). -/
def execZextB (h : Hid) (t : Word) (s : State) : Out := s.shfRow h shfZextB t
/-- ZEXT_H (R117, Table OC-4). -/
def execZextH (h : Hid) (t : Word) (s : State) : Out := s.shfRow h shfZextH t
/-- CLZ (R117, Table OC-4). -/
def execClz (h : Hid) (t : Word) (s : State) : Out := s.shfRow h shfClz t
/-- PACK (R117, Table OC-4). -/
def execPack (h : Hid) (t : Word) (s : State) : Out := s.shfRow h shfPack t
/-- MUL (R122, Table OC-5). -/
def execMul (h : Hid) (t : Word) (s : State) : Out := s.mulRow h mulMul t
/-- MULU (R122, Table OC-5). -/
def execMulu (h : Hid) (t : Word) (s : State) : Out := s.mulRow h mulMulu t
/-- MULSU (R122, Table OC-5). -/
def execMulsu (h : Hid) (t : Word) (s : State) : Out := s.mulRow h mulMulsu t
/-- MUL_H2 (R122, Table OC-5). -/
def execMulH2 (h : Hid) (t : Word) (s : State) : Out := s.mulRow h mulMulH2 t
/-- MULQ_H2 (R122, Table OC-5). -/
def execMulqH2 (h : Hid) (t : Word) (s : State) : Out := s.mulRow h mulMulqH2 t
/-- MULQ (R122, Table OC-5). -/
def execMulq (h : Hid) (t : Word) (s : State) : Out := s.mulRow h mulMulq t
/-- MAC (R120, R122, R123). -/
def execMac (h : Hid) (t : Word) (s : State) : Out := s.accRow h .mac t
/-- MSU (R120, R122, R123). -/
def execMsu (h : Hid) (t : Word) (s : State) : Out := s.accRow h .msu t
/-- MAC_H2 (R120, R122, R123). -/
def execMacH2 (h : Hid) (t : Word) (s : State) : Out := s.accRow h .macH2 t
/-- MSU_H2 (R120, R122, R123). -/
def execMsuH2 (h : Hid) (t : Word) (s : State) : Out := s.accRow h .msuH2 t
/-- MACU (R120, R122, R123). -/
def execMacu (h : Hid) (t : Word) (s : State) : Out := s.accRow h .macu t
/-- ACCR (R120, R122, R123). -/
def execAccr (h : Hid) (t : Word) (s : State) : Out := s.accRow h .accr t
/-- ACCR_H (R120, R122, R123). -/
def execAccrH (h : Hid) (t : Word) (s : State) : Out := s.accRow h .accrH t
/-- DIV (R126, R127). -/
def execDiv (h : Hid) (t : Word) (s : State) : Out := s.divRow h divDiv t
/-- DIVU (R126, R127). -/
def execDivu (h : Hid) (t : Word) (s : State) : Out := s.divRow h divDivu t
/-- REM (R126, R127). -/
def execRem (h : Hid) (t : Word) (s : State) : Out := s.divRow h divRem t
/-- REMU (R126, R127). -/
def execRemu (h : Hid) (t : Word) (s : State) : Out := s.divRow h divRemu t
/-- EQ (R130, Table OC-7). -/
def execEq (h : Hid) (t : Word) (s : State) : Out := s.prdRow h prdEq t
/-- NE (R130, Table OC-7). -/
def execNe (h : Hid) (t : Word) (s : State) : Out := s.prdRow h prdNe t
/-- LT (R130, Table OC-7). -/
def execLt (h : Hid) (t : Word) (s : State) : Out := s.prdRow h prdLt t
/-- LTU (R130, Table OC-7). -/
def execLtu (h : Hid) (t : Word) (s : State) : Out := s.prdRow h prdLtu t
/-- LE (R130, Table OC-7). -/
def execLe (h : Hid) (t : Word) (s : State) : Out := s.prdRow h prdLe t
/-- LEU (R130, Table OC-7). -/
def execLeu (h : Hid) (t : Word) (s : State) : Out := s.prdRow h prdLeu t
/-- GT (R130, Table OC-7). -/
def execGt (h : Hid) (t : Word) (s : State) : Out := s.prdRow h prdGt t
/-- GTU (R130, Table OC-7). -/
def execGtu (h : Hid) (t : Word) (s : State) : Out := s.prdRow h prdGtu t
/-- GE (R130, Table OC-7). -/
def execGe (h : Hid) (t : Word) (s : State) : Out := s.prdRow h prdGe t
/-- GEU (R130, Table OC-7). -/
def execGeu (h : Hid) (t : Word) (s : State) : Out := s.prdRow h prdGeu t
/-- TST (R130, Table OC-7). -/
def execTst (h : Hid) (t : Word) (s : State) : Out := s.prdRow h prdTst t
/-- BIT (R130, Table OC-7). -/
def execBit (h : Hid) (t : Word) (s : State) : Out := s.prdRow h prdBit t

end Sys2Proof.Machine
end

