-- ==== Sys2Proof/Machine/Near.lean ====
section
/-!
DEFINITION. Near loads and stores of LSU0 and LSU1 (05 R132 to R135; 03 R75 to R78; 06 R162 to R165; 10 R274).
-/
namespace Sys2Proof.Machine
open Sys2Proof

/-- A near operation: bytes accessed, sign extension, store (Table OM-1). -/
structure NearOp where
  width  : Nat
  signed : Bool
  store  : Bool
deriving DecidableEq, Repr

/-- The near operations in trigger order, ids 0xB0 to 0xB7 and 0xC0 to 0xC7 (Table OM-1). -/
def nearOps : List NearOp :=
  [⟨4, false, false⟩, ⟨2, true, false⟩, ⟨2, false, false⟩, ⟨1, true, false⟩, ⟨1, false, false⟩,
   ⟨4, false, true⟩, ⟨2, false, true⟩, ⟨1, false, true⟩]

/-- The memory cell a local address shows (03 Table HT-7); ports and registers have keys of their own. -/
def State.localKey (s : State) (h : Hid) (a : Nat) : Nat :=
  let fw := (s.hearth h).rd 0x010
  if a < 0x8000 then ldmKey h a
  else if a < 0xC000 then feltKey h (fld fw 0 5 * 0x4000 + (a - 0x8000))
  else if a < 0xE000 then feltKey h (0x40000 + fld fw 8 2 * 0x2000 + (a - 0xC000))
  else if a < 0xF000 then draftKey h (a - 0xE000)
  else 0x300000000 + h.val * 0x10000 + a

/-- The fault a near operation raises at its issue, in the order of R133, then R274 and the rights of R185. -/
def State.nearFault (s : State) (h : Hid) (p : NearOp) (t : Word) : Option Byte :=
  let x := s.hearth h
  let a := fld t 0 16
  if fld t 16 16 ≠ 0 then some 0x04
  else if a % p.width ≠ 0 then some 0x05
  else if 0xF000 ≤ a && p.width != 4 then some 0x05
  else if p.store && within 0xC000 a 0xDFFF then some 0x04
  else if a < 0xF000 && !x.brimOk false a (a + p.width - 1) (!p.store) p.store x.mode then some 0x08
  else if p.store && within 0xE000 a 0xE00F then some 0x04
  else if p.store && within 0xE000 a 0xEFFF && tb (x.rd 0x050) 25 then some 0x04
  else if 0xF800 ≤ a && !(if p.store then csrMayWrite x.mode (a - 0xF800) else csrMayRead x.mode (a - 0xF800)) then
    some 0x08
  else none

/-- The fault is raised on the word; a brim fault is recorded (R187). -/
def State.nearRaise (s : State) (h : Hid) (p : NearOp) (t : Word) (c : Byte) : State :=
  let s1 := if c = 0x08 then
      s.modHearth h (fun x => x.brimRecord false (fld t 0 16) p.store x.mode) else s
  s1.preciseFault h c

/-- Whether a buffered store holds the byte with key `k`. -/
def SbEntry.holds (e : SbEntry) (k : Nat) : Bool := decide (e.key ≤ k) && decide (k < e.key + 4) && e.mask.getLsbD (k - e.key)

/-- The youngest buffered store that holds a byte, with its position counted from the oldest as 1 (R163, R164). -/
def sbFind : List SbEntry → Nat → Nat → Option (Nat × SbEntry)
  | [], _, _ => none
  | e :: r, i, k =>
    match sbFind r (i + 1) k with
    | some x => some x
    | none => if e.holds k then some (i, e) else none

/-- A byte as a near load sees it: from the youngest buffered store that holds it, else from the target (R163). -/
def State.nearByte (s : State) (h : Hid) (k : Nat) : Byte :=
  match sbFind (s.hearth h).sb 1 k with
  | some (_, e) => BitVec.ofNat 8 (lane e.data (k - e.key) 8)
  | none => s.byte k

/-- The position of the youngest buffered store whose local address is at least `lo`, or 0 (R135, R152, R164). -/
def sbLast (lo : Nat) : List SbEntry → Nat → Nat
  | [], _ => 0
  | e :: r, i => max (if lo ≤ e.addr then i else 0) (sbLast lo r (i + 1))

/-- The stall cycles of a near access: of a load 0 for no overlap and for full cover (R164, R135); of a store those after
which the buffer has room for it and the stores of this cycle before it (R165). -/
def State.nearStall (s : State) (h : Hid) (p : NearOp) (t : Word) : Nat :=
  let sb := (s.hearth h).sb
  let a := fld t 0 16
  if p.store then sb.length - 1 + (s.hearth h).sbNew.length + 1 - 8
  else if 0xF000 ≤ a then sbLast 0xF000 sb 1
  else
    let at' := (List.range p.width).map (fun i => sbFind sb 1 (s.localKey h a + i))
    if at'.all Option.isSome then 0
    else at'.foldl (fun n x => match x with
      | some (i, _) => max n i
      | none => n) 0

/-- The number that a near load reads (R132, R163; R274 for the header; R378 and Table OM-10 for ports). -/
def State.nearValue (s : State) (h : Hid) (p : NearOp) (a : Nat) : Nat :=
  let x := s.hearth h
  if within 0xE000 a 0xE00F then (s.draftHeader h ((a - 0xE000) / 4)).toNat / 2 ^ (8 * (a % 4)) % 2 ^ (8 * p.width)
  else if a < 0xF000 then leNat ((List.range p.width).map (fun i => s.nearByte h (s.localKey h a + i)))
  else if a < 0xF800 then (s.portRead h (a - 0xF000) x.mode).toNat
  else (s.csr h (a - 0xF800) x.mode).toNat

/-- The load result with its extension (Table OM-1). -/
def NearOp.extend (p : NearOp) (n : Nat) : Word :=
  if p.signed then (if p.width = 1 then sext8 n else sext16 n) else w32 n

/-- The latency of a near load by region (Table OM-2). -/
def nearL (a : Nat) : Nat := if a < 0x8000 then 2 else if a < 0xF000 then 4 else 6

/-- The side effects of a near load: those of reading a register (R10, Table OM-10). -/
def State.nearFx (s : State) (h : Hid) (a : Nat) : State :=
  if 0xF800 ≤ a then s.modHearth h (fun x => x.csrReadFx (a - 0xF800)) else s

/-- A near load is performed in the current issue cycle on LSU `u`. -/
def State.nearLoad (s : State) (h : Hid) (u : Fin 2) (p : NearOp) (t : Word) : State :=
  let a := fld t 0 16
  let v := p.extend (s.nearValue h p a)
  (s.nearFx h a).modHearth h (fun x =>
    x.fly (if u = 0 then .lsu0 else .lsu1) (nearL a) (.one (if u = 0 then 8 else 9) v) false false false)

/-- The buffer entry of a near store: word-aligned address, data in its lanes, byte mask, mode (R162, R152). -/
def State.sbEntry (s : State) (h : Hid) (u : Fin 2) (p : NearOp) (t : Word) : SbEntry :=
  let x := s.hearth h
  let a := fld t 0 16
  let sh := a % 4
  ⟨a - sh, s.localKey h (a - sh), w32 ((x.opnd (0x30 + u.val)).toNat * 2 ^ (8 * sh)),
   BitVec.ofNat 4 ((2 ^ p.width - 1) * 2 ^ sh), x.mode⟩

/-- A near store is performed in the current issue cycle: its entry enters the buffer at the cycle's end (R162). -/
def State.nearStore (s : State) (h : Hid) (u : Fin 2) (p : NearOp) (t : Word) : State :=
  let e := s.sbEntry h u p t
  s.modHearth h (fun x => { x with sbNew := x.sbNew ++ [e] })

/-- A near operation after its checks. -/
def State.nearFire (s : State) (h : Hid) (u : Fin 2) (p : NearOp) (t : Word) : State :=
  if p.store then s.nearStore h u p t else s.nearLoad h u p t

/-- A load needs an entry of the tracking table, and LSU1 waits for an atomic that will write LSU1.r (R141, R170). -/
def Hearth.nearHeld (h : Hearth) (u : Fin 2) (p : NearOp) : Bool :=
  !p.store && (decide (48 ≤ h.ottUsed) || (u == 1 && h.lsu1Pend))

/-- A near trigger: it is held while the scoreboard or the tracking table holds it, stalls as the buffer requires,
and then faults or is performed. -/
def State.nearRow (s : State) (h : Hid) (u : Fin 2) (p : NearOp) (t : Word) : Out :=
  if (s.hearth h).nearHeld u p then .next (s.stallCycle h false)
  else
    let s1 := s.stallN h (s.nearStall h p t)
    match s1.nearFault h p t with
    | some c => .next (s1.nearRaise h p t c)
    | none => .next (s1.nearFire h u p t)

/-- LD (Table OM-1). -/
def execLd (h : Hid) (u : Fin 2) (t : Word) (s : State) : Out := s.nearRow h u ⟨4, false, false⟩ t
/-- LDH (Table OM-1). -/
def execLdh (h : Hid) (u : Fin 2) (t : Word) (s : State) : Out := s.nearRow h u ⟨2, true, false⟩ t
/-- LDHU (Table OM-1). -/
def execLdhu (h : Hid) (u : Fin 2) (t : Word) (s : State) : Out := s.nearRow h u ⟨2, false, false⟩ t
/-- LDB (Table OM-1). -/
def execLdb (h : Hid) (u : Fin 2) (t : Word) (s : State) : Out := s.nearRow h u ⟨1, true, false⟩ t
/-- LDBU (Table OM-1). -/
def execLdbu (h : Hid) (u : Fin 2) (t : Word) (s : State) : Out := s.nearRow h u ⟨1, false, false⟩ t
/-- ST (Table OM-1). -/
def execSt (h : Hid) (u : Fin 2) (t : Word) (s : State) : Out := s.nearRow h u ⟨4, false, true⟩ t
/-- STH (Table OM-1). -/
def execSth (h : Hid) (u : Fin 2) (t : Word) (s : State) : Out := s.nearRow h u ⟨2, false, true⟩ t
/-- STB (Table OM-1). -/
def execStb (h : Hid) (u : Fin 2) (t : Word) (s : State) : Out := s.nearRow h u ⟨1, false, true⟩ t

end Sys2Proof.Machine
end

