-- ==== Sys2Proof/Machine/Crc.lean ====
section
/-!
DEFINITION. The cyclic checks of the link (12 R337, R343): CRC-8, CRC-16 and the CRC-32 of IEEE 802.3, and the bytes
of a frame they cover.
-/
namespace Sys2Proof.Machine
open Sys2Proof

/-- One byte into an unreflected CRC of `w` bits. -/
def crcByte (w : Nat) (poly c : BitVec w) (b : Byte) : BitVec w :=
  (List.range 8).foldl (fun c _ => if c.getLsbD (w - 1) then (c <<< 1) ^^^ poly else c <<< 1)
    (c ^^^ (BitVec.ofNat w b.toNat <<< (w - 8)))

/-- CRC-8, polynomial 0x07, initial value 0 (R337). -/
def crc8 (bs : List Byte) : Byte := bs.foldl (crcByte 8 0x07) 0

/-- CRC-16, polynomial 0x1021, initial value 0xFFFF (Table YL-4). -/
def crc16 (bs : List Byte) : BitVec 16 := bs.foldl (crcByte 16 0x1021) 0xFFFF

/-- One byte into the reflected CRC-32. -/
def crc32Byte (c : Word) (b : Byte) : Word :=
  (List.range 8).foldl (fun c _ => if c.getLsbD 0 then (c >>> 1) ^^^ 0xEDB88320 else c >>> 1)
    (c ^^^ BitVec.ofNat 32 b.toNat)

/-- The CRC-32 of IEEE 802.3. -/
def crc32 (bs : List Byte) : Word := ~~~(bs.foldl crc32Byte 0xFFFFFFFF)

/-- The header bytes 0 to 15 of a frame (Table YL-4). -/
def frameHead (f : Frame) : List Byte :=
  [f.type,
   BitVec.ofNat 8 (f.tc % 4 + (if f.det then 4 else 0) + (if f.w then 8 else 0) + (if f.sv then 16 else 0) + f.gen % 4 * 32)]
    ++ leBytes 2 f.dst.toNat ++ leBytes 2 f.src.toNat ++ [BitVec.ofNat 8 f.hops, BitVec.ofNat 8 f.lseq]
    ++ leBytes 2 (f.tag % 1024 + f.hrt % 64 * 1024) ++ [BitVec.ofNat 8 f.payload.length, f.mod]
    ++ leBytes 4 f.addr.toNat

/-- HCRC over bytes 0 to 15. -/
def frameHcrc (f : Frame) : BitVec 16 := crc16 (frameHead f)

/-- FCRC over the header, with HOPS, LSEQ, DET and HCRC taken as 0, and the payload (R343). -/
def frameFcrc (f : Frame) : Word :=
  crc32 (frameHead { f with hops := 0, lseq := 0, det := false } ++ [0, 0] ++ f.payload.flatMap (fun w => leBytes 4 w.toNat))

/-- A frame with its two check values as a sender gives them. -/
def sealFrame (f : Frame) : Frame := { f with hcrc := frameHcrc f, fcrc := frameFcrc f }

/-- The CRC-8 of a control word (R337). -/
def ctlOk (ctype : Nat) (c : CtlWord) : Bool := c.crc == crc8 (BitVec.ofNat 8 ctype :: leBytes 6 c.args.toNat)

/-- Argument bytes of a control word, byte `i` from 1. -/
def ctlArg (c : CtlWord) (i n : Nat) : Nat := c.args.toNat / 2 ^ (8 * (i - 1)) % 2 ^ (8 * n)

end Sys2Proof.Machine
end

