-- ==== Sys2Proof/Machine/LinkOps.lean ====
section
/-!
DEFINITION. The link engine's shared operations (12): ports, credits and replay, routing, tags, and the sending of
frames and control words. The rows of the link stand in Link.lean and Frames.lean.
-/
namespace Sys2Proof.Machine
open Sys2Proof

def lctl : Nat := 0x40080000

/-! ## Events of a block: a W1C bit, and a line raised on all hearths where its enable is set -/

/-- Bit `b` of an event register set; the line is raised if the enable register has the bit (12 LEVTEN, 10 EEVTEN). -/
def State.event (s : State) (reg en line b : Nat) : State :=
  let s1 := s.modReg reg (fun w => setBit w b true)
  if tb (s1.reg en) b then s1.raiseAll line else s1

/-- An event of the LINK block (LEVT, LEVTEN, line 11). -/
def State.linkEvent (s : State) (b : Nat) : State := s.event (lctl + 0x1C) (lctl + 0x20) 11 b

/-! ## Ports -/

def State.port (s : State) (p : Fin 4) : Port := s.lk.ports[p]
def State.setPort (s : State) (p : Fin 4) (x : Port) : State := { s with lk := { s.lk with ports := s.lk.ports.set p x } }
def State.modPort (s : State) (p : Fin 4) (f : Port → Port) : State := s.setPort p (f (s.port p))

/-- LPCFGp (Table YL-9). -/
def State.portCfg (s : State) (p : Fin 4) : Word := s.reg (lctl + 0x40 + 0x20 * p.val)

/-- LPSTp.STATE: DISABLED while LPCFGp.EN = 0 (R338). -/
def State.portState (s : State) (p : Fin 4) : Nat := if tb (s.portCfg p) 0 then (s.port p).state else 6

def State.portUp (s : State) (p : Fin 4) : Bool := s.portState p == 4

/-- LPNBp: the node learned at training. -/
def State.portNb (s : State) (p : Fin 4) : Word := s.reg (lctl + 0x48 + 0x20 * p.val)

def allPorts : List (Fin 4) := List.finRange 4

/-- A control word with its CRC-8 (R337). -/
def ctlWord (ctype args : Nat) : CtlOut :=
  ⟨ctype, BitVec.ofNat 48 args, crc8 (BitVec.ofNat 8 ctype :: leBytes 6 (args % 2 ^ 48))⟩

/-- A control word is sent on a port (R337). -/
def State.sendCtl (s : State) (p : Fin 4) (ctype args : Nat) : State :=
  s.modPort p (fun x => { x with ctlOut := x.ctlOut ++ [ctlWord ctype args] })

/-- The credits of a frame: one per 32 bytes of header, payload and FCRC, rounded up (R345). -/
def frameCredits (f : Frame) : Nat := (22 + 4 * f.payload.length + 31) / 32

/-- Whether a port holds the credits of a frame; class 0 needs none (Table YL-6). -/
def Port.hasCredit (x : Port) (f : Frame) : Bool :=
  f.tc % 4 == 0 || decide (frameCredits f ≤ (if f.det then x.dcred else x.cred)[fin 3 (f.tc % 4 - 1)])

/-- The credits of a frame are used up. -/
def Port.takeCredit (x : Port) (f : Frame) : Port :=
  if f.tc % 4 = 0 then x
  else
    let k := fin 3 (f.tc % 4 - 1)
    if f.det then { x with dcred := x.dcred.set k (x.dcred[k] - frameCredits f) }
    else { x with cred := x.cred.set k (x.cred[k] - frameCredits f) }

/-- The time of a frame on the line in ns: 13 + 2 LEN pairs of 8 ns (R343). -/
def frameTime (f : Frame) : Nat := 8 * (13 + 2 * f.payload.length)

/-- The next frame to go out at `t` (R346, Table YL-6): between frames the oldest of the highest class that has credits; while a frame of
another class is on the line, the oldest of class 0, to be inserted. The replay buffer takes 64 (R349). -/
def Port.pick (x : Port) (t : Nat) : Option QItem :=
  if 64 ≤ x.replay.length then none
  else if x.busy ≤ t then (List.range 4).findSome? (fun k => x.queue.find? (fun i => i.frame.tc % 4 == k && x.hasCredit i.frame))
  else if x.outer && decide (x.ins ≤ t) then x.queue.find? (fun i => i.frame.tc % 4 == 0)
  else none

/-- A frame as it is sent: HOPS counts it, LSEQ numbers it, the checks are rewritten (R343). -/
def Port.stamp (x : Port) (f : Frame) (ins : Bool) : Frame :=
  let f1 := { f with hops := f.hops + 1, lseq := x.tx, ins := ins }
  { f1 with hcrc := frameHcrc f1, fcrc := frameFcrc f1 }

/-- A frame goes out at `t`, between frames or inserted, and the replay buffer holds it (R346, R349). -/
def Port.emit (x : Port) (i : QItem) (t : Nat) : Port :=
  let ins := decide (t < x.busy)
  { (x.takeCredit i.frame) with
    queue := x.queue.erase i, tx := (x.tx + 1) % 256, replay := x.replay ++ [⟨x.stamp i.frame ins, t, 0⟩]
    busy := (if ins then x.busy else t) + frameTime i.frame, ins := if ins then t + frameTime i.frame else t
    outer := if ins then x.outer else i.frame.tc % 4 != 0 }

/-- A frame leaves a port, and its credits go back to where it came from (R345). -/
def State.emitOn (s : State) (p : Fin 4) (i : QItem) : State :=
  let s1 := s.modPort p (fun x => x.emit i s.now)
  match i.arr with
  | some q => if i.cred = 0 then s1 else s1.sendCtl q 0x04 i.cred
  | none => s1

/-- Waiting frames go out while the line, credits and the replay buffer allow, at most `n` of them. -/
def State.flow (s : State) (p : Fin 4) : Nat → State
  | 0 => s
  | n + 1 =>
    match (s.port p).pick s.now with
    | some i => (s.emitOn p i).flow p n
    | none => s

/-- What waits goes out. -/
def State.flowOn (s : State) (p : Fin 4) : State := s.flow p (s.port p).queue.length

/-- A frame queued for an UP port, and what can be sent goes out. -/
def State.queueOn (s : State) (p : Fin 4) (i : QItem) : State :=
  (s.modPort p (fun x => { x with queue := x.queue ++ [i] })).flowOn p

def State.sendOn (s : State) (p : Fin 4) (f : Frame) : State := s.queueOn p ⟨f, none, 0⟩

/-! ## Routing (R341) -/

/-- LTOPO.MODE and the ring size. -/
def State.topo (s : State) : Nat := fld (s.reg (lctl + 8)) 0 2
def State.ringN (s : State) : Nat := fld (s.reg (lctl + 8)) 16 9

/-- Toward the destination along one axis: E or W, N or S. -/
def toward (lo hi : Fin 4) (own dst : Nat) : Fin 4 := if own < dst then hi else lo

/-- Where a frame goes: to DST, or on its return to the device that gave it (R355). -/
def frTarget (f : Frame) : BitVec 14 := if f.ret then f.src else f.dst

/-- The output of a frame that is not for this device, with the frame's DET as rewritten (R341). In a ring the distance is the mod of
R17, of the sign of DST - own. `arr` is the port of
arrival, none at the origin. -/
def State.route (s : State) (arr : Option (Fin 4)) (f : Frame) : Fin 4 × Frame :=
  let own := s.nodeId.toNat
  let dst := (frTarget f).toNat
  if s.topo = 0 then (toward 3 1 own dst, f)
  else if s.topo = 1 then
    let n : Int := s.ringN
    let d : Int := Int.tmod (Int.ofNat dst - Int.ofNat own) n
    if f.det then
      (match arr with
       | some p => if p = 3 then 1 else 3
       | none => if 2 * d ≤ n then 1 else 3, f)
    else
      let out : Fin 4 := if 2 * d ≤ n then 1 else 3
      if s.portUp out then (out, f) else (if out = 1 then 3 else 1, { f with det := true })
  else
    let ox := own / 128
    let oy := own % 128
    let dx := dst / 128
    let dy := dst % 128
    let f1 :=
      if f.det then f
      else
        let out := if dx ≠ ox then toward 3 1 ox dx else toward 2 0 oy dy
        if !s.portUp out && dx != ox && dy != oy then { f with det := true } else f
    if f1.det then (if dy ≠ oy then toward 2 0 oy dy else toward 3 1 ox dx, f1)
    else (if dx ≠ ox then toward 3 1 ox dx else toward 2 0 oy dy, f1)

/-! ## Tags (06 R172, 12 R357) -/

/-- The generation of a tag. -/
def State.tagGen (s : State) (t : Nat) : Nat := smGet (fun _ => 0) s.lk.gens t

/-- The lowest free tag of the 1,024 (log entry 10). -/
def State.freeTag (s : State) : Option Nat :=
  (List.range (s.lk.tags.length + 1)).find? (fun t => decide (t < 1024) && !s.lk.tags.any (fun x => x.1 == t))

/-- A user takes a tag if one is free and no other began to wait before (R172). -/
def State.takeTag (s : State) (u : TagUser) : Option (Nat × State) :=
  match s.freeTag with
  | none => none
  | some t =>
    if (match s.lk.wait with
        | [] => true
        | w :: _ => w.1 == u) then
      some (t, { s with lk := { s.lk with tags := s.lk.tags ++ [(t, u, s.now)], wait := s.lk.wait.filter (fun w => w.1 != u) } })
    else none

/-- System cycles of 300 MHz in `n` ns. -/
def sysCycles (n : Nat) : Nat := n * 3 / 10

/-- The rank of a waiter among those of one system cycle: crossbar master priority, then the local index of the hearth (R172).
An outbound post ranks with its sender. -/
def State.tagRank (s : State) (u : TagUser) : Nat :=
  match u with
  | .far h _ => 8 + h.val
  | .halo h _ => 8 + h.val
  | .bel e _ => 8 * (9 + e.val)
  | .post id =>
    (match (s.hub.outs.find? (fun (o : OutPost) => o.id == id)).map OutPost.sender with
     | some (Sender.hearth h) => 8 + h.val
     | some (Sender.staging k) => if k.val < 2 then 8 * (9 + k.val) else 8 * (10 + k.val)
     | _ => 8 * 11)

/-- A user that found no tag waits, once: behind those that began to wait before, in the order of rank within a system cycle. -/
def State.waitTag (s : State) (u : TagUser) : State :=
  if s.lk.wait.any (fun w => w.1 == u) then s
  else
    let before := fun (w : TagUser × Nat) =>
      decide (sysCycles w.2 < sysCycles s.now) || (sysCycles w.2 == sysCycles s.now && decide (s.tagRank w.1 ≤ s.tagRank u))
    { s with lk := { s.lk with wait := s.lk.wait.takeWhile before ++ (u, s.now) :: s.lk.wait.dropWhile before } }

/-- A waiter gives up. -/
def State.unwaitTag (s : State) (u : TagUser) : State :=
  { s with lk := { s.lk with wait := s.lk.wait.filter (fun w => w.1 != u) } }

/-- Every waiter that satisfies `p` gives up. -/
def State.unwaitAll (s : State) (p : TagUser → Bool) : State :=
  { s with lk := { s.lk with wait := s.lk.wait.filter (fun w => !p w.1) } }

/-- The user of a tag, if the generation is the current one. -/
def State.tagUser (s : State) (t gen : Nat) : Option TagUser :=
  if s.tagGen t = gen % 4 then (s.lk.tags.find? (fun x => x.1 == t)).map (fun x => x.2.1) else none

/-- A transaction ends: its tag is free and its GEN advances (R357). -/
def State.dropTag (s : State) (t : Nat) : State :=
  { s with lk := { s.lk with
      tags := s.lk.tags.filter (fun x => x.1 != t)
      gens := smSet (fun _ => 0) s.lk.gens t ((s.tagGen t + 1) % 4) } }

/-! ## Frames of this device -/

/-- The traffic class of a type (Table YL-5). -/
def typeTc (t : Nat) : Nat :=
  if t = 0x01 || t = 0x03 || t = 0x05 || t = 0x07 then 3
  else if t = 0x02 || t = 0x04 || t = 0x06 || t = 0x08 || t = 0x0A then 1
  else if t = 0x09 then 2 else 0

/-- A frame of this device. -/
def State.frame (s : State) (ty : Nat) (m : Mode) (dst : BitVec 14) (tag hrt md : Nat) (addr : Word) (pay : List Word) : Frame :=
  { type := BitVec.ofNat 8 ty, tc := typeTc ty, det := false, w := isG m, sv := isSup m, gen := s.tagGen tag, dst := dst
    src := s.nodeId, hops := 0, lseq := 0, tag := tag, hrt := hrt, mod := BitVec.ofNat 8 md, addr := addr, payload := pay
    hcrc := 0, fcrc := 0, ins := false, bad := false, ret := false }

/-- A waiting frame takes its route, or there is no UP port (R341). -/
def State.sendItem (s : State) (i : QItem) : Option State :=
  let r := s.route i.arr i.frame
  if s.portUp r.1 then some (s.queueOn r.1 { i with frame := r.2 }) else none

/-- The arguments of the CRED for a frame taken in: its class or that class's detour pool, and its credits (R345, Table YL-2). -/
def credArgs (f : Frame) : Nat := if f.tc % 4 = 0 then 0 else f.tc % 4 + (if f.det then 128 else 0) + frameCredits f * 2 ^ 8

/-- A frame leaves this device by its route, or there is no UP port (R341). -/
def State.sendRouted (s : State) (arr : Option (Fin 4)) (f : Frame) : Option State :=
  s.sendItem ⟨f, arr, if arr.isSome then credArgs f else 0⟩

/-- A frame is dropped (LDROPC). -/
def State.dropped (s : State) : State := s.count (lctl + 0x34)

/-- A frame that has no UP port here is dropped (R341). -/
def State.unrouted (s : State) : State := s.dropped.linkEvent 5

/-- A FAIL frame goes to the requester of a failed frame; one that cannot be routed is dropped (R342, R352). -/
def State.sendFail (s : State) (dst : BitVec 14) (f : Frame) (why : Nat) : State :=
  let g : Frame := { f with type := 0x12, tc := 0, det := false, dst := dst, src := s.nodeId, hops := 0, mod := BitVec.ofNat 8 why
                            addr := w32 s.nodeId.toNat, payload := [] }
  match s.sendRouted none g with
  | some s1 => s1
  | none => s.unrouted

/-- The response to a request: its type, TC 1, tag and GEN echoed, status and data (Tables YL-4, YL-5). -/
def State.response (s : State) (f : Frame) (st : Nat) (pay : List Word) : Frame :=
  { f with type := f.type + 1, tc := 1, det := false, dst := f.src, src := s.nodeId, hops := 0, mod := BitVec.ofNat 8 st
           payload := pay, addr := if f.type = 0x07 then 0 else f.addr }

/-- A response already owed is kept, to be sent again (R355). -/
def State.keepResp (s : State) (f : Frame) : State := { s with lk := { s.lk with resp := s.lk.resp ++ [(f, s.now)] } }

/-- A response leaves for the requester; the old value of an AT that was not performed is open (Table YL-5 gives ATR
one word; log entry 2). Without a route one of a request performed here is kept and sent again
(R355), and a read response is dropped (R341, R342). -/
def State.respond (s0 : State) (f : Frame) (st : Nat) (pay0 : List Word) : State :=
  let none? := pay0.isEmpty && f.type == 0x05
  let pay := if none? then [Config.freeWord s0.free] else pay0
  let s := if none? then { s0 with free := s0.free + 1 } else s0
  let g := s.response f st pay
  match s.sendRouted none g with
  | some s1 => s1
  | none => if g.type = 0x02 then s.unrouted else s.linkEvent 5 |>.keepResp g

/-! ## Remote quench (R361) -/

/-- A frame goes out on every UP port but one. -/
def State.flood (s : State) (but : Option (Fin 4)) (f : Frame) : State :=
  allPorts.foldl (fun (s : State) p => if s.portUp p && some p != but then s.sendOn p f else s) s

/-- A remote quench of this device, with its next sequence number. -/
def State.sendQuench (s : State) (mask : Nat) : State :=
  let f := s.frame 0x10 .gs 0x3FFF 0 0x3F 0 0 [w32 (mask % 2 ^ 16 + s.lk.rqSeq % 2 ^ 8 * 2 ^ 16)]
  { s with lk := { s.lk with rqSeq := (s.lk.rqSeq + 1) % 256 } }.flood none f

end Sys2Proof.Machine
end

