-- ==== Sys2Proof/Machine/Xbar.lean ====
section
/-!
DEFINITION. The crossbar (14): targets, the issue of requests, arbitration, promotion, slices, and the error log.
-/
namespace Sys2Proof.Machine
open Sys2Proof

def xbar : Nat := 0x40030000

/-- SYSCTL.REMAP. -/
def State.remap (s : State) : Bool := tb (s.reg 0x40000004) 0

/-- The target of a peripheral block (Table XB-3). -/
def blockTarget (b : Nat) : Fin 19 :=
  if b = 5 || b = 6 then 14 else if b = 7 then 15 else if b = 8 then 16 else if b = 1 || b = 16 then 17 else 13

/-- The target of an address, the low alias by the mapping `ram` (R383, R385); none where it reaches no target (R384). -/
def targetOf (ram : Bool) (a : Nat) : Option (Fin 19) :=
  if a < 0x200000 then some (if ram then 0 else 1)
  else if within 0x10000000 a 0x101FFFFF || within 0x18000000 a 0x181FFFFF || within 0x19000000 a 0x191FFFFF then some 0
  else if within 0x11000000 a 0x1100FFFF then some 1
  else if within 0x12000000 a 0x1200FFFF then some 2
  else if within 0x13000000 a 0x130FFFFF then some 3
  else if within 0x20000000 a 0x213FFFFF then some (fin 19 (5 + (a - 0x20000000) / 0x50000 / 8))
  else if within 0x30000000 a 0x305FFFFF then some (fin 19 (5 + (a - 0x30000000) / 0xC0000))
  else if within 0x38000000 a 0x380FFFFF then some 4
  else if within 0x40000000 a 0x4011FFFF then
    (let b := (a - 0x40000000) / 0x10000
     if a % 0x10000 ≤ blockEnd b then some (blockTarget b) else none)
  else if within 0x50000000 a 0x5001FFFF then some (fin 19 (5 + (a - 0x50000000) / 0x800 / 8))
  else if within 0x60000000 a 0x63FFFFFF then some 18
  else none

/-- The accepted word of a port of a hearth (Table XB-2): masters 1 to 8. -/
def portOf (h : Hid) (m : Mode) : Who := ⟨fin 15 (1 + h.val / 8), some h, m⟩

/-! ## The error log (R399) -/

/-- What XERRI records of an event. -/
def xerri (w : Who) (t : Option (Fin 19)) (kind : Nat) (wr at' : Bool) : Word :=
  w32 (w.master.val + (match t with
      | some t => t.val
      | none => 31) * 2 ^ 4 + kind * 2 ^ 9 + (match w.hearth with
      | some h => h.val
      | none => 63) * 2 ^ 16)
    ||| bitAt wr 13 ||| bitAt at' 14 ||| bitAt true 31

/-- A bus error or abort is logged (R399). -/
def State.xerr (s : State) (w : Who) (t : Option (Fin 19)) (kind addr : Nat) (wr at' : Bool) : State :=
  let s1 := s.count (xbar + 0x28)
  if tb (s1.reg (xbar + 0x24)) 31 then s1
  else (s1.setReg (xbar + 0x20) (w32 addr)).setReg (xbar + 0x24) (xerri w t kind wr at')

def XOp.isWr (o : XOp) : Bool :=
  match o with
  | .read _ => false
  | .write _ => true
  | .gaps _ => true
  | .atomic _ _ => true

/-- The bytes a transaction covers. -/
def XOp.size : XOp → Nat
  | .read n => n
  | .write bs => bs.length
  | .gaps n => n
  | .atomic _ _ => 4

def XOp.isAt (o : XOp) : Bool :=
  match o with
  | .read _ => false
  | .write _ => false
  | .gaps _ => false
  | .atomic _ _ => true

/-- What a block answers a write: the machine, or the KIND of its bus error. -/
abbrev BusW := Except Nat State

/-- What a block answers a read: the word and the machine, or the KIND of its bus error. -/
abbrev BusR := Except Nat (Word × State)

/-- Whether a master acts in GS, and in the G world. -/
def whoGs (w : Who) : Bool := w.mode == .gs
def whoG (w : Who) : Bool := isG w.mode

/-- A write that only masters acting in GS may make; others end with KIND 2. -/
def gsOnly (w : Who) (s : State) : BusW := if whoGs w then .ok s else .error 2

/-! ## The end of a transaction, as its master sees it -/

/-- A far access is answered. -/
def State.farEnd (s : State) (h : Hid) (id : Nat) (st : FarStatus) : State :=
  s.modHearth h (fun x => { x with far := x.far.map (fun f => if f.id = id then { f with status := st } else f) })

/-- A transaction of a bellows chunk is answered: its data, or why it failed (R407). -/
def State.belEnd (s : State) (e : Fin 2) (id : Nat) (r : Option (List Byte) × Nat) : State :=
  let b := s.bel[e]
  { s with bel := s.bel.set e { b with chunks := b.chunks.map (fun c => if c.id = id then { c with answer := some r } else c) } }

/-- The data words of a read response after the first (12 Table YL-5). -/
def replyWords : List Byte → List Word
  | a :: b :: c :: d :: r => w32 (leNat [a, b, c, d]) :: replyWords r
  | _ => []

/-- The answer of a transaction reaches its master: data, or the KIND of its bus error (R399; 05 R143; 12 R359). -/
def State.xbEnd (s : State) (o : XFrom) (r : Except Nat (List Byte)) : State :=
  match o with
  | .far h id =>
    s.farEnd h id (match r with
      | .ok bs => .answered (w32 (leNat bs))
      | .error _ => .failed 0x09)
  | .bel e id =>
    s.belEnd e id (match r with
      | .ok bs => (some bs, 0)
      | .error _ => (none, 1))
  | .link f =>
    (match r with
    | .ok bs => s.respond f 0 (if f.type = 0x03 then [] else [w32 (leNat (bs.take 4))] ++ replyWords (bs.drop 4))
    | .error _ => s.respond f 2 [])
  | .cmd =>
    { s with xb := { s.xb with ans := match r with
        | .ok bs => (0, bs)
        | .error k => (k, []) } }

/-! ## Islands that are off, and clocks that stand (01 R26; 14 R398; 17 R461, R468, R470) -/

/-- Whether the island of a target is off, or the state refuses the access (R26, R398; 17 Table PW-5): the stacks in Banked, the AFE
once it has stopped for Ember or Cold, everything but the always-on island in Cold. -/
def State.targetOff (s : State) (t : Fin 19) : Bool :=
  s.xb.off.getLsbD t.val || (s.pw.st == 1 && within 5 t.val 12) || (s.pw.st == 0 && t == 15 && decide (9 ≤ s.stopped))
    || (s.pw.st == 3 && t != 17)

/-- Whether a target holds its bursts because a clock stands (R26, R398): the crossbar's own in Ember; of a stack or the link that has
stopped for an entry into sleep; of the AFE and the link without the reference (17 Table PW-1). The QSPI window waits while a
flash command or staging has the flash (16 R431). -/
def State.targetHeld (s : State) (t : Fin 19) : Bool :=
  s.pw.st == 2
    || (s.pw.st == 0 && within 5 t.val 12 && decide (t.val < 5 + s.stopped))
    || (s.pw.st == 0 && t == 16 && decide (10 ≤ s.stopped))
    || ((t == 15 || t == 16) && !s.pw.ref)
    || (t == 18 && (s.pat.qcmd.isSome || s.pat.stage.isSome))

/-! ## Requests -/

/-- A request is issued: it waits at its target, or ends with a bus error where there is none (R384, R385). -/
def State.xbIssue (s : State) (w : Who) (a : Nat) (op : XOp) (o : XFrom) : State :=
  match targetOf s.remap a with
  | none => (s.xerr w none 1 a op.isWr op.isAt).xbEnd o (.error 1)
  | some t =>
    { s with
      nextId := s.nextId + 1
      xb := { s.xb with reqs := s.xb.reqs ++ [⟨s.nextId + 1, w, t, a, op, s.now, false, s.remap, o, none⟩] } }

/-- A far access of a hearth. -/
def XReq.isFar (r : XReq) : Bool :=
  match r.origin with
  | .far _ _ => true
  | _ => false

/-- Two requests that are performed in the order of their issue: of one hearth, or one master, at one target (R387, R391), and the
far accesses of a hearth to this device at all its targets (05 R142; 13 R381). -/
def sameOwn (q r : XReq) : Bool :=
  q.who.master == r.who.master && q.who.hearth == r.who.hearth && (q.target == r.target || (q.isFar && r.isFar))

/-- Whether a request is the oldest of its own among the waiting ones. -/
def firstOfOwn (rs : List XReq) (r : XReq) : Bool :=
  match rs.find? (fun q => sameOwn q r) with
  | some q => q.id == r.id
  | none => false

/-- The rank of an unpromoted request: master priority, then the local index of the hearth (R391). -/
def XReq.rank (r : XReq) : Nat :=
  r.who.master.val * 8 + (match r.who.hearth with
    | some h => localIx h
    | none => 0)

/-- The request with the least rank. -/
def leastRank : List XReq → Option XReq
  | [] => none
  | r :: rs =>
    match leastRank rs with
    | some q => if r.rank ≤ q.rank then some r else some q
    | none => some r

/-- The longest wait of a master (R392, XWAITm). -/
def State.noteWait (s : State) (r : XReq) : State :=
  s.modReg (xbar + 0x40 + 4 * r.who.master.val) (fun w => w32 (max w.toNat (min 65535 (sysCycles (s.now - r.issued)))))

/-- XAGE.LIM. -/
def State.xage (s : State) : Nat := fld (s.reg (xbar + 0x14)) 0 12

/-- PROMOTION (R392): request `n` of the waiting ones has waited LIM system cycles. -/
def execPromotion (n : Nat) (s : State) : Out :=
  .next { s with xb := { s.xb with reqs := s.xb.reqs.mapIdx (fun i r =>
    if i = n && s.xage != 0 && decide (s.xage ≤ sysCycles (s.now - r.issued)) then { r with promoted := true } else r) } }

/-- SLICE_CHANGE (R394): a pending change of XSLICE applies to a target that holds no burst. -/
def execSliceChange (t : Fin 19) (s : State) : Out :=
  if (s.xb.busy[t]).isSome then .next s
  else
    let b := tb (s.reg (xbar + 4)) t.val
    let m : BitVec 19 := BitVec.ofNat 19 (2 ^ t.val)
    .next { s with xb := { s.xb with slices := if b then s.xb.slices ||| m else s.xb.slices &&& ~~~m } }

/-- XSTAT as it reads: the slice changes pending, BOOTPARK until the hearths are released (R393, R394). -/
def State.xstat (s : State) : Word :=
  (s.reg (xbar + 4) ^^^ w32 s.xb.slices.toNat) ||| bitAt (!s.xb.released) 24

/-! ## Requests lost with a reset (R397) -/

/-- Ungranted requests of a master, or of one hearth, are withdrawn. -/
def State.withdrawReqs (s : State) (p : XReq → Bool) : State :=
  { s with xb := { s.xb with reqs := s.xb.reqs.filter (fun r => !p r) } }

end Sys2Proof.Machine
end

