-- ==== Sys2Proof/Machine/Far.lean ====
section
/-!
DEFINITION. Far accesses and felt atomics on the hearth's side (05 R137 to R144; 06 R167 to R172): the trigger and its
checks, the tracking table and the link tags, completion, acknowledgement and failure.
-/
namespace Sys2Proof.Machine
open Sys2Proof

/-- Bytes of a far access (Table OM-3). -/
def farWidth : FarKind → Nat
  | .ldhu => 2
  | .sth => 2
  | .ld => 4
  | .st => 4
  | .add => 4
  | .addsH2 => 4
  | .swap => 4

/-- Whether a node id addresses this device without a link (R137). -/
def State.isLocal (s : State) (n : BitVec 14) : Bool := n == 0x3FFF || n == s.nodeId

/-- The node of a far access: LSU1.x[13:0] (R137). -/
def Hearth.farNode (h : Hearth) : BitVec 14 := BitVec.ofNat 14 (fld (h.opnd 0x32) 0 14)

/-- The destination of a far access: the register O[4:0] names, LSU1.r for an atomic, none for a store (R138, R141). -/
def Hearth.farDest (h : Hearth) (k : FarKind) : FarDest :=
  if farIsStore k then .nowhere else if farIsAtomic k then .lsu1 else h.destOf (fin 32 (fld (h.opnd 0x31) 0 5))

/-- The fault of a far trigger at its issue, in the order of R139. -/
def State.farFault (s : State) (h : Hid) (k : FarKind) (t : Word) : Option Byte :=
  let x := s.hearth h
  if t.toNat % farWidth k ≠ 0 then some 0x05
  else if farIsAtomic k && !within 0x20000000 t.toNat 0x213FFFFF then some 0x04
  else if s.isLocal x.farNode &&
      !x.brimOk true t.toNat (t.toNat + farWidth k - 1) (!farIsStore k) (farIsStore k || farIsAtomic k) x.mode then
    some 0x08
  else none

def State.farRaise (s : State) (h : Hid) (k : FarKind) (t : Word) (c : Byte) : State :=
  let s1 := if c = 0x08 then
      s.modHearth h (fun x => x.brimRecord true t.toNat (farIsStore k || farIsAtomic k) x.mode) else s
  s1.preciseFault h c

/-- Whether a far trigger is held: its destination is pending, or no entry or sub-limit of the tracking table is
free (R141, R170). -/
def Hearth.farHeld (h : Hearth) (k : FarKind) : Bool :=
  decide (48 ≤ h.ottUsed)
    || (if farIsStore k then decide (8 ≤ h.nFst) else decide (16 ≤ h.nFld) || h.destPend (h.farDest k))

/-! ## The access -/

/-- The transaction of a far access at this device's crossbar (R138, R140). -/
def farXOp (k : FarKind) (v : Word) : XOp :=
  match k with
  | .ld => .read 4
  | .ldhu => .read 2
  | .st => .write (leBytes 4 v.toNat)
  | .sth => .write (leBytes 2 v.toNat)
  | .add => .atomic .add v
  | .addsH2 => .atomic .addsH2 v
  | .swap => .atomic .swap v

/-- The frame type of a far access: RD, WR or AT (12 Table YL-5). -/
def farType (k : FarKind) : Nat := if farIsStore k then 0x03 else if farIsAtomic k then 0x05 else 0x01

/-- MOD of its frame: words - 1 or 0x80 for a half, the byte mask, the atomic (12 Table YL-5). -/
def farMod (k : FarKind) (a : Nat) : Nat :=
  match k with
  | .ld => 0
  | .ldhu => 0x80
  | .st => 0xF
  | .sth => 3 * 2 ^ (a % 4)
  | .add => 0
  | .addsH2 => 1
  | .swap => 2

/-- ADDR of its frame: a store's byte mask is that of the aligned word (log entry 11). -/
def farAddr (k : FarKind) (a : Word) : Word := if farIsStore k then w32 (a.toNat - a.toNat % 4) else a

/-- Its payload: the store's data in its byte lanes, an atomic's operand. -/
def farPay (k : FarKind) (a v : Word) : List Word :=
  if farIsStore k then [w32 (v.toNat * 2 ^ (8 * (a.toNat % 4)))] else if farIsAtomic k then [v] else []

/-- The access is entered in the tracking table; its destination is pending from here (R141). -/
def State.farAdd (s : State) (h : Hid) (k : FarKind) (t : Word) (tag : Option Nat) : State :=
  let x := s.hearth h
  let op : FarOp := ⟨s.nextId + 1, k, x.farNode, t, x.opnd 0x31, x.farDest k, x.mode, tag, .waiting⟩
  { s.setHearth h { x with far := x.far ++ [op] } with nextId := s.nextId + 1 }

/-- An access to this device goes to its crossbar (R137). -/
def State.farLocal (s : State) (h : Hid) (k : FarKind) (t : Word) : State :=
  let x := s.hearth h
  let s1 := s.farAdd h k t none
  s1.xbIssue (portOf h x.mode) t.toNat (farXOp k (x.opnd 0x31)) (.far h (s.nextId + 1))

/-- The user of the tag of access `id`. -/
def State.retag (s : State) (t : Nat) (u : TagUser) : State :=
  { s with lk := { s.lk with tags := s.lk.tags.map (fun x => if x.1 = t then (t, u, x.2.2) else x) } }

/-- An access to another device takes a tag and leaves as a frame, or ends at once where no port is UP (R143). -/
def State.farRemote (s : State) (h : Hid) (k : FarKind) (t : Word) (tag : Nat) : State :=
  let x := s.hearth h
  let s1 := (s.farAdd h k t (some tag)).retag tag (.far h (s.nextId + 1))
  let f := s1.frame (farType k) x.mode x.farNode tag h.val (farMod k t.toNat) (farAddr k t) (farPay k t (x.opnd 0x31))
  match s1.sendRouted none f with
  | some s2 => s2
  | none => (s1.unrouted.farEnd h (s.nextId + 1) (.failed 0x0A)).dropTag tag

/-- A far trigger that passed its checks; without a free tag the hearth stalls (06 R172). -/
def State.farFire (s : State) (h : Hid) (k : FarKind) (t : Word) : State :=
  if s.isLocal (s.hearth h).farNode then s.farLocal h k t
  else match s.takeTag (.far h 0) with
    | some (tag, s1) => s1.farRemote h k t tag
    | none => (s.waitTag (.far h 0)).stallCycle h false

/-- A far trigger: held, faulting, or issued. -/
def State.farRow (s : State) (h : Hid) (k : FarKind) (t : Word) : Out :=
  if (s.hearth h).farHeld k then .next (s.stallCycle h false)
  else match s.farFault h k t with
    | some c => .next (s.farRaise h k t c)
    | none => .next (s.farFire h k t)

/-- LD_FAR (Table OM-3). -/
def execLdFar (h : Hid) (t : Word) (s : State) : Out := s.farRow h .ld t
/-- LDHU_FAR (Table OM-3). -/
def execLdhuFar (h : Hid) (t : Word) (s : State) : Out := s.farRow h .ldhu t
/-- ST_FAR (Table OM-3, 06 R167). -/
def execStFar (h : Hid) (t : Word) (s : State) : Out := s.farRow h .st t
/-- STH_FAR (Table OM-3, 06 R167). -/
def execSthFar (h : Hid) (t : Word) (s : State) : Out := s.farRow h .sth t
/-- ADD_FAR (Table OM-3, R140). -/
def execAddFar (h : Hid) (t : Word) (s : State) : Out := s.farRow h .add t
/-- ADDS_H2_FAR (Table OM-3, R140). -/
def execAddsH2Far (h : Hid) (t : Word) (s : State) : Out := s.farRow h .addsH2 t
/-- SWAP_FAR (Table OM-3, R140). -/
def execSwapFar (h : Hid) (t : Word) (s : State) : Out := s.farRow h .swap t

/-! ## The end of an access -/

/-- Data written to the destination of a far load or atomic (R141). -/
def Hearth.deliver (h : Hearth) (d : FarDest) (v : Word) : Hearth :=
  match d with
  | .reg r => { h with g := h.g.set r v }
  | .sp m => h.setSp m v
  | .lsu1 => { h with rs := h.rs.set 9 v }
  | .nowhere => h

/-- The oldest access of the kind a row ends, with its answer. -/
def Hearth.farDone (h : Hearth) (store : Bool) : Option (FarOp × Word) :=
  h.far.findSome? (fun f => match f.status with
    | .answered v => if farIsStore f.kind == store then some (f, v) else none
    | _ => none)

/-- FAR_LOAD_COMPLETION (R141). -/
def execFarLoadCompletion (h : Hid) (s : State) : Out :=
  match (s.hearth h).farDone false with
  | none => .next s
  | some (f, v) => .next (s.modHearth h (fun x => { x with far := x.far.erase f }.deliver f.dest v))

/-- FAR_STORE_ACK (06 R167). -/
def execFarStoreAck (h : Hid) (s : State) : Out :=
  match (s.hearth h).farDone true with
  | none => .next s
  | some (f, _) => .next (s.modHearth h (fun x => { x with far := x.far.erase f }))

/-- A failure recorded in FAEA, FAEN and FAP, or counted in MORE while FAP = 1 (R143). -/
def Hearth.recordFail (h : Hearth) (f : FarOp) (cause : Byte) : Hearth :=
  if h.fap then h.wr 0x05C (putF (h.rd 0x05C) 16 4 (min 15 (fld (h.rd 0x05C) 16 4 + 1)))
  else
    ({ h with fap := true, fapCause := cause }.wr 0x058 f.addr).wr 0x05C
      (w32 f.node.toNat ||| bitAt (farIsStore f.kind) 24)

/-- FAR_ACCESS_FAILURE (R143): a failed load writes 0 to its destination. -/
def execFarAccessFailure (h : Hid) (s : State) : Out :=
  match (s.hearth h).far.findSome? (fun f => match f.status with
      | .failed c => some (f, c)
      | _ => none) with
  | none => .next s
  | some (f, c) => .next (s.modHearth h (fun x => (({ x with far := x.far.erase f } : Hearth).deliver f.dest 0).recordFail f c))

end Sys2Proof.Machine
end

