-- ==== Sys2Proof/Machine/Mailbox.lean ====
section
/-!
DEFINITION. Mailboxes, doorbells and hob locks: the MBX unit (05 R146 to R148) and the hub (13 R364 to R382).
-/
namespace Sys2Proof.Machine
open Sys2Proof

def mbox : Nat := 0x40090000

/-! ## The MBX triggers -/

/-- The MBX operations in trigger order, ids 0xE0 to 0xE5 (Table OM-5). -/
def mbxOps : List MbxKind := [.post, .fetch, .peek, .pstat, .ring, .dbclr]

/-- post and fetch use LDM: they wait for the near store buffer and check O (R146, R147). -/
def MbxKind.ldm (k : MbxKind) : Bool := k == .post || k == .fetch

/-- MBX.o. -/
def Hearth.mbxO (h : Hearth) : Word := h.opnd 0x34

/-- The precise address fault of R147. -/
def Hearth.mbxFault (h : Hearth) (k : MbxKind) : Option Byte :=
  let o := h.mbxO.toNat
  if k.ldm && (o % 4 != 0 || decide (0x8000 < o + 32)) then some 0x04 else none

/-- An MBX operation starts: a post reads its bytes, and MBX.r is pending (R146, R147). -/
def State.mbxFire (s : State) (h : Hid) (k : MbxKind) (t : Word) : State :=
  s.modHearth h (fun x =>
    { x with mbx := some ⟨k, t, x.mbxO, x.mode,
        if k = .post then s.bytes (ldmKey h x.mbxO.toNat) (fld t 8 5 + 1) else [], none⟩ })

/-- An MBX trigger: held while MBX.r is pending, the buffer is not empty where it must be, or no entry is free. -/
def State.mbxRow (s : State) (h : Hid) (k : MbxKind) (t : Word) : Out :=
  if (s.hearth h).mbxPend then .next (s.stallCycle h false)
  else
    let s1 := if k.ldm then s.stallN h (s.hearth h).sb.length else s
    s1.tracked h (fun s =>
      match (s.hearth h).mbxFault k with
      | some c => s.preciseFault h c
      | none => s.mbxFire h k t)

/-- POST (Table OM-5). -/
def execPost (h : Hid) (t : Word) (s : State) : Out := s.mbxRow h .post t
/-- FETCH (Table OM-5). -/
def execFetch (h : Hid) (t : Word) (s : State) : Out := s.mbxRow h .fetch t
/-- PEEK (Table OM-5). -/
def execPeek (h : Hid) (t : Word) (s : State) : Out := s.mbxRow h .peek t
/-- PSTAT (Table OM-5). -/
def execPstat (h : Hid) (t : Word) (s : State) : Out := s.mbxRow h .pstat t
/-- RING (Table OM-5). -/
def execRing (h : Hid) (t : Word) (s : State) : Out := s.mbxRow h .ring t
/-- DBCLR (Table OM-5). -/
def execDbclr (h : Hid) (t : Word) (s : State) : Out := s.mbxRow h .dbclr t

/-! ## The hub -/

def State.box (s : State) (n : Nat) : List Msg := s.hub.boxes[fin 128 n]
def State.setBox (s : State) (n : Nat) (l : List Msg) : State := { s with hub := { s.hub with boxes := s.hub.boxes.set (fin 128 n) l } }

/-- Outbound posts of a mailbox. -/
def State.outsOf (s : State) (n : Nat) : List OutPost := s.hub.outs.filter (fun o => o.box == n)

/-- MBEVT bit set. -/
def State.mbEvt (s : State) (b : Nat) : State := s.modReg (mbox + 8) (fun w => setBit w b true)

/-- The MBEVT bit of a status: FULL, TIMEOUT, LINKFAIL, PEERRST, DENIED. -/
def mbEvtBit (st : Byte) : Option Nat :=
  if st = 1 then some 0 else if st = 3 then some 1 else if st = 4 then some 2 else if st = 5 then some 3
  else if st = 6 then some 4 else none

def State.mbNote (s : State) (st : Byte) : State :=
  match mbEvtBit st with
  | some b => s.mbEvt b
  | none => s

/-- The sender-side record of a hearth's last post to a mailbox (R369). -/
def Hearth.pstatOf (h : Hearth) (n : Nat) : Option (Nat × Byte) := (h.pstat.find? (fun p => p.1 == n)).map (fun p => p.2)

def Hearth.setPstat (h : Hearth) (n id : Nat) (st : Byte) : Hearth :=
  { h with pstat := (n, id, st) :: h.pstat.filter (fun p => p.1 != n) }

/-- Global address of MBSSTk. -/
def mbsst (k : Nat) : Nat := mbox + 0x624 + 0x40 * k

/-- A post is recorded with its sender; it replaces the record of an earlier one (R369). -/
def State.recordPost (s : State) (snd : Sender) (n id : Nat) (st : Byte) : State :=
  match snd with
  | .hearth h => s.modHearth h (fun x => x.setPstat n id st)
  | .staging k => { s with hub := { s.hub with stg := s.hub.stg.set k id } }.setReg (mbsst k.val) (w32 st.toNat)
  | .node _ => s

/-- The outcome of post `id` reaches its sender, if it still is the last one; line 2 is raised on a hearth (R369). -/
def State.outcome (s : State) (snd : Sender) (n id : Nat) (st : Byte) : State :=
  match snd with
  | .hearth h =>
    if ((s.hearth h).pstatOf n).any (fun p => p.1 == id) then s.modHearth h (fun x => (x.setPstat n id st).raise 2) else s
  | .staging k => if s.hub.stg[k] = id then s.setReg (mbsst k.val) (w32 st.toNat) else s
  | .node _ => s

/-- A mailbox operation is DENIED to a caller: by its mode, or EN = 0 (R365). -/
def State.denied (s : State) (n : Nat) (m : Mode) : Bool := !boxWorld (s.mbcfg n) n m || !mbEn (s.mbcfg n)

/-- A staging buffer may post to P and remote mailboxes, debug's to G ones too (Table MB-1). -/
def State.stagingDenied (s : State) (k : Fin 5) (n : Nat) (m : Mode) : Bool :=
  !mbEn (s.mbcfg n) || (if n < 64 then false else if n < 96 then k != 4 else isG m != mbG (s.mbcfg n))

/-- A post to a P or G mailbox whose receiver is the posting hearth is DENIED (R365). -/
def State.postDenied (s : State) (snd : Sender) (n : Nat) (m : Mode) : Bool :=
  match snd with
  | .hearth h => s.denied n m || (decide (n < 96) && mbRcv (s.mbcfg n) == h)
  | .staging k => s.stagingDenied k n m
  | .node _ => false

/-- The bytes of a message as whole words; what the last word holds beyond them the spec leaves open: free bytes
(log entry 2). -/
def padBytes (free : Nat) (bs : List Byte) : List Byte :=
  bs ++ ((leBytes 4 (Config.freeWord free).toNat).take ((4 - bs.length % 4) % 4))

def bytesOf (ws : List Word) : List Byte := ws.flatMap (fun w => leBytes 4 w.toNat)

/-- The MB frame of an outbound post (R372). -/
def State.mbFrame (s : State) (o : OutPost) (tag : Nat) : Frame :=
  let c := s.mbcfg o.box
  s.frame 0x07 o.mode (BitVec.ofNat 14 (fld c 8 14)) tag
    (match o.sender with
     | .hearth h => h.val
     | _ => 0x3F) (fld c 24 5) 0 (wordsOf (padBytes s.free o.bytes))

/-- An outbound post ends: its slot and its tag are freed, its sender learns the outcome (Table MB-2). -/
def State.endOut (s : State) (o : OutPost) (st : Byte) : State :=
  let s1 := { s with hub := { s.hub with outs := s.hub.outs.filter (fun q => q.id != o.id) } }
  let s2 := match o.tag with
    | some t => s1.dropTag t
    | none => s1.unwaitTag (.post o.id)
  (s2.mbNote st).outcome o.sender o.box o.id st

/-- An outbound post takes a tag and is sent; without a tag it waits with its slot (R372). -/
def State.sendOut (s : State) (o : OutPost) : State :=
  match s.takeTag (.post o.id) with
  | none => s.waitTag (.post o.id)
  | some (t, s1) =>
    let o1 := { o with tag := some t }
    let s2 := { s1 with free := s1.free + 1, hub := { s1.hub with outs := s1.hub.outs.map (fun (q : OutPost) => if q.id = o.id then o1 else q) } }
    match s2.sendRouted none (s1.mbFrame o t) with
    | some s3 => s3
    | none => s2.unrouted.endOut o1 4

/-- MBCTL.MODE is SERVICE. -/
def State.service (s : State) : Bool := fld (s.reg mbox) 0 2 == 0

/-- The instant at which MBXTO ends for what was posted at `t` (R370, R371). -/
def State.mbEnds (s : State) (t : Nat) : Nat := t + fld (s.reg (mbox + 4)) 0 24 * 1000

/-- Whether MBXTO has passed since an instant. -/
def State.mbLate (s : State) (t : Nat) : Bool := decide (s.mbEnds t ≤ s.now)

/-- The oldest message of a mailbox is withdrawn where MBXTO has passed outside SERVICE (R370). -/
def State.withdraw (s : State) (n : Nat) : State :=
  match s.box n with
  | [] => s
  | g :: r =>
    if s.service || !s.mbLate g.posted then s
    else (((s.setBox n r).count (mbox + 0x10)).mbEvt 1).outcome g.sender n g.id 3

/-- A withdrawal that is due comes before a post of the same cycle, which it may give its slot (R368). -/
def State.beforePost (s : State) (n : Nat) : State := if 8 ≤ (s.box n).length then s.withdraw n else s

/-- A post reaches the hub: the state after, and its status; a remote post answers OK once it has its slot and, for
its sender's answer, its tag (R365, R366, R372, R375). -/
def State.hubPost (s1 : State) (snd : Sender) (m : Mode) (n : Nat) (bs : List Byte) : State × Byte :=
  let s := s1.beforePost n
  let id := s.nextId + 1
  let s0 := { s with nextId := id }
  if s.postDenied snd n m then (s0.mbEvt 4, 6)
  else if n < 96 && (s.hearth (mbRcv (s.mbcfg n))).run == .held then
    ((s0.mbEvt 3).recordPost snd n id 7 |>.outcome snd n id 5, 5)
  else if 8 ≤ (s.box n).length + (s.outsOf n).length then
    (((s0.mbEvt 0).count (mbox + 0x14)).recordPost snd n id 7 |>.outcome snd n id 1, 1)
  else if n < 96 then ((s0.setBox n (s.box n ++ [⟨id, bs, snd, s.now⟩])).recordPost snd n id 7, 0)
  else
    let o : OutPost := ⟨id, n, snd, m, bs, s.now, none⟩
    let s1 := { s0 with hub := { s0.hub with outs := s0.hub.outs ++ [o] } }
    ((s1.recordPost snd n id 7).sendOut o, 0)

/-- The answer of the hub to a hearth. -/
def State.mbxAnswer (s : State) (h : Hid) (q : MbxReq) (v : Word) : State :=
  s.modHearth h (fun x => { x with mbx := some { q with answer := some v } })

/-- An outbound post of this hearth still waits for a tag. -/
def State.outWaiting (s : State) (h : Hid) : Option OutPost :=
  s.hub.outs.find? (fun o => o.sender == .hearth h && o.tag.isNone)

/-- HUB_POST (R366): the post of a hearth reaches the hub, or takes the tag it waits for. -/
def execHubPost (h : Hid) (s : State) : Out :=
  match (s.hearth h).mbx with
  | some q =>
    if q.kind = .post && q.answer.isNone then
      match s.outWaiting h with
      | some o =>
        let s1 := s.sendOut o
        .next (if (s1.outWaiting h).isSome then s1 else s1.mbxAnswer h q 0)
      | none =>
        let r := s.hubPost (.hearth h) q.mode (fld q.t 0 7) q.bytes
        .next (if (r.1.outWaiting h).isSome then r.1 else r.1.mbxAnswer h q (w32 r.2.toNat))
    else .next s
  | none => .next s

/-- A fetch at the hub (R365, R367): the status with LEN, the message, and the state after. -/
def State.hubFetch (s : State) (h : Hid) (m : Mode) (n : Nat) : State × Word × List Byte :=
  if s.denied n m || mbRcv (s.mbcfg n) != h then (s.mbEvt 4, 6, [])
  else match s.box n with
    | [] => (s, 2, [])
    | g :: r => ((s.setBox n r).outcome g.sender n g.id 0, w32 (g.bytes.length * 2 ^ 8), g.bytes)

/-- HUB_FETCH (R367, R368). -/
def execHubFetch (h : Hid) (s : State) : Out :=
  match (s.hearth h).mbx with
  | some q =>
    if q.kind = .fetch && q.answer.isNone then
      let r := s.hubFetch h q.mode (fld q.t 0 7)
      .next (r.1.mbxAnswer h { q with bytes := r.2.2 } r.2.1)
    else .next s
  | none => .next s

/-- MBX.r is written and no longer pending (R146). -/
def State.mbxDone (s : State) (h : Hid) (v : Word) : State :=
  s.modHearth h (fun x => { x with mbx := none, rs := x.rs.set 12 v })

/-- A ring at its target: bits 48 to 63 are refused to the P world (R377). -/
def State.ring (s : State) (m : Mode) (h : Hid) (bit : Nat) : State × Byte :=
  if 48 ≤ bit && !isG m then (s.mbEvt 4, 6)
  else (s.modHearth h (fun x => { x with doorbell := x.doorbell ||| BitVec.ofNat 64 (2 ^ bit) }), 0)

/-- What pstat reports: the record, or a free status where this hearth has posted nothing there (log entry 2). -/
def State.pstatAnswer (s : State) (h : Hid) (n : Nat) : Word × State :=
  match (s.hearth h).pstatOf n with
  | some p => (w32 p.2.toNat, s)
  | none => (w32 (fld (Config.freeWord s.free) 0 8), { s with free := s.free + 1 })

/-- MBX_ANSWER (R146, R148): the answer of the hub arrives; a fetched message is written to LDM (R367). -/
def execMbxAnswer (h : Hid) (s : State) : Out :=
  match (s.hearth h).mbx with
  | none => .next s
  | some q =>
    let n := fld q.t 0 7
    match q.kind with
    | .post =>
      match q.answer with
      | some v => .next (s.mbxDone h v)
      | none => .next s
    | .fetch =>
      match q.answer with
      | some v =>
        let s1 := (s.setBytes (ldmKey h q.o.toNat) (padBytes s.free q.bytes)).mbxDone h v
        .next { s1 with free := s1.free + 1 }
      | none => .next s
    | .peek =>
      .next (s.mbxDone h (if s.denied n q.mode then 6 else w32 ((s.box n).length * 2 ^ 16)))
    | .pstat =>
      if s.denied n q.mode then .next (s.mbxDone h 6)
      else .next ((s.pstatAnswer h n).2.mbxDone h (s.pstatAnswer h n).1)
    | .ring =>
      let r := s.ring q.mode (fin 64 (fld q.o 0 6)) (fld q.t 0 6)
      .next (r.1.mbxDone h (w32 r.2.toNat))
    | .dbclr =>
      let sh := if tb q.o 0 then 32 else 0
      let old := w32 ((s.hearth h).doorbell.toNat / 2 ^ sh)
      .next ((s.modHearth h (fun x => x.clearDb (q.t.toNat * 2 ^ sh) q.mode)).mbxDone h old)

/-! ## Waiting and timeouts (R370, R371) -/

/-- The receiver of a mailbox has a fetch from it on its way. -/
def State.fetchComes (s : State) (n : Nat) : Bool :=
  (s.hearth (mbRcv (s.mbcfg n))).mbx.any (fun q => q.kind == .fetch && q.answer.isNone && fld q.t 0 7 == n && !s.denied n q.mode)

/-- WITHDRAWAL (R370): the oldest message of a mailbox, not fetched within MBXTO outside SERVICE. In the instant in which MBXTO ends a
fetch comes first (R368). -/
def execWithdrawal (m : Fin 128) (s : State) : Out :=
  match s.box m.val with
  | [] => .next s
  | g :: _ => if s.now < s.mbEnds g.posted + 8 && s.fetchComes m.val then .next s else .next (s.withdraw m.val)

/-- MBXTO_EXPIRY (R372): MBXTO expires on outbound post `n`, counted from the oldest, outside SERVICE. -/
def execMbxtoExpiry (n : Nat) (s : State) : Out :=
  match s.hub.outs[n]? with
  | none => .next s
  | some o => if s.service || o.tag.isNone || !s.mbLate o.posted then .next s else .next (s.endOut o 3)

/-! ## Resets (R375, R376) -/

/-- A cleared message: its hearth's status for the mailbox becomes PEERRST, of whatever post it was, and line 2 is raised; a staging
buffer's MBSSTk becomes 5; one from the fabric is counted (R375). A hearth that was reset since has no record (R376). -/
def State.clearMsg (s : State) (n : Nat) (g : Msg) : State :=
  match g.sender with
  | .node _ => s.count (mbox + 0x18)
  | .staging k => (s.mbEvt 3).setReg (mbsst k.val) 5
  | .hearth h =>
    match (s.hearth h).pstatOf n with
    | some p => (s.mbEvt 3).modHearth h (fun x => (x.setPstat n p.1 5).raise 2)
    | none => s.mbEvt 3

/-- The queue of a mailbox is cleared (R375). -/
def State.clearBox (s : State) (n : Nat) : State :=
  (s.box n).foldl (fun (s : State) g => s.clearMsg n g) (s.setBox n [])

/-- Every mailbox a hearth receives is cleared (R375). -/
def State.clearReceiver (s : State) (h : Hid) : State :=
  (List.range 128).foldl (fun (s : State) n => if mbRcv (s.mbcfg n) = h then s.clearBox n else s) s

/-- The posts of a sender that are not in a slot of a receiver end without a status (R376). -/
def State.dropOuts (s : State) (snd : Sender) : State :=
  (s.hub.outs.filter (fun o => o.sender == snd)).foldl (fun (s : State) o =>
    let s1 := { s with hub := { s.hub with outs := s.hub.outs.filter (fun q => q.id != o.id) } }
    match o.tag with
    | some t => s1.dropTag t
    | none => s1.unwaitTag (.post o.id)) s

/-- The reset of a sending hearth (R376), and of its doorbells (R377). -/
def State.resetSender (s : State) (h : Hid) : State :=
  (s.dropOuts (.hearth h)).modHearth h (fun x => { x with mbx := none, pstat := [], doorbell := 0 })

/-- The reset of a staging master: its buffer, its record, and its posts not in a slot of a receiver (R376). -/
def State.resetStaging (s : State) (k : Fin 5) : State :=
  let s1 := (List.range 8).foldl (fun (s : State) i => s.setReg (mbox + 0x600 + 0x40 * k.val + 4 * i) 0) (s.dropOuts (.staging k))
  { s1 with hub := { s1.hub with stg := s1.hub.stg.set k 0 } }.setReg (mbsst k.val) 0

/-! ## Hob locks (R379 to R381) -/

/-- The lock master id of a bus master (Table MB-4). -/
def lockId (w : Who) : Option Nat :=
  match w.hearth with
  | some h => some h.val
  | none =>
    if w.master = 0 then some 64 else if w.master = 9 then some 65 else if w.master = 10 then some 66
    else if w.master = 12 then some 68 else if w.master = 13 then some 69 else if w.master = 14 then some 70 else none

def State.lock (s : State) (n : Nat) : Option Nat := s.hub.locks[fin 64 n]
def State.setLock (s : State) (n : Nat) (o : Option Nat) : State := { s with hub := { s.hub with locks := s.hub.locks.set (fin 64 n) o } }

/-- What a read of a lock returns: 0, or the owner's id + 1. -/
def State.lockView (s : State) (n : Nat) : Word :=
  match s.lock n with
  | none => 0
  | some i => w32 (i + 1)

/-- Whether a master may touch lock `n` (R381). -/
def lockMay (w : Who) (n : Nat) : Bool := (lockId w).isSome && (whoG w || decide (n < 48))

/-- A read of HLOCKn: a free lock is acquired (R379). -/
def State.lockRead (s : State) (w : Who) (n : Nat) : BusR :=
  if lockMay w n then .ok (s.lockView n, if s.lock n = none then s.setLock n (lockId w) else s) else .error 2

/-- A write to HLOCKn: 0 by the owner frees it; any other is recorded (R379). -/
def State.lockWrite (s : State) (w : Who) (n : Nat) (v : Word) : BusW :=
  if !lockMay w n then .error 2
  else if v = 0 && s.lock n == lockId w then .ok (s.setLock n none)
  else .ok ((s.mbEvt 5).setReg (mbox + 0xA08) (w32 (n + (lockId w).getD 0 * 2 ^ 8) ||| bitAt true 31))

/-- Every lock an owner holds is freed (R381, 14 R397). -/
def State.freeLocks (s : State) (id : Nat) : State :=
  { s with hub := { s.hub with locks := s.hub.locks.map (fun o => if o = some id then none else o) } }

/-! ## The MBOX registers (Table MB-5) -/

/-- The staging buffer of a master (Table MB-5). -/
def stagingOf (m : Fin 15) : Option (Fin 5) :=
  if m = 9 then some 0 else if m = 10 then some 1 else if m = 12 then some 2
  else if m = 13 then some 3 else if m = 14 then some 4 else none

/-- MBSGOk: the contents of staging buffer `k` are posted (R366). -/
def State.stagingPost (s : State) (k : Fin 5) (m : Mode) (v : Word) : State :=
  let bs := ((List.range 8).flatMap (fun i => leBytes 4 (s.reg (mbox + 0x600 + 0x40 * k.val + 4 * i)).toNat)).take (fld v 8 5 + 1)
  let r := s.hubPost (.staging k) m (fld v 0 7) bs
  if r.2 = 6 then r.1.recordPost (.staging k) (fld v 0 7) r.1.nextId 6 else r.1

/-- A read of the MBOX block at offset `o`. -/
def State.mboxRead (s : State) (w : Who) (o : Nat) : BusR :=
  if within 0x800 o 0x8FF then s.lockRead w ((o - 0x800) / 4)
  else if within 0x900 o 0x9FF then .ok (s.lockView ((o - 0x900) / 4), s)
  else if within 0x300 o 0x4FF then
    .ok (w32 ((s.box ((o - 0x300) / 4)).length + (s.outsOf ((o - 0x300) / 4)).length * 2 ^ 4), s)
  else .ok (s.reg (mbox + o), s.clearRc (mbox + o))

/-- A write to the MBOX block at offset `o` (R382). -/
def State.mboxWrite (s : State) (w : Who) (o : Nat) (v : Word) : BusW :=
  let lk := tb (s.reg mbox) 8
  if o = 0x20 then .ok (s.ring w.mode (fin 64 (fld v 8 6)) (fld v 0 6)).1
  else if within 0x600 o 0x73F then
    (let k := (o - 0x600) / 0x40
     match stagingOf w.master with
     | none => .error 2
     | some j =>
       if j.val ≠ k then .error 2
       else if (o - 0x600) % 0x40 = 0x20 then .ok (s.stagingPost j w.mode v)
       else .ok (s.putReg (mbox + o) v lk))
  else if within 0x800 o 0x8FF then s.lockWrite w ((o - 0x800) / 4) v
  else if !whoGs w then .error 2
  else if o = 4 then .ok (s.putReg (mbox + 4) (w32 (max 36 (fld v 0 24))) lk)
  else if within 0x100 o 0x2FF then
    .ok (if lk then s else (s.putReg (mbox + o) v false).clearBox ((o - 0x100) / 4))
  else if o = 0xA00 || o = 0xA04 then
    .ok ((List.range 32).foldl (fun (s : State) i => if tb v i then s.setLock ((o - 0xA00) * 8 + i) none else s) s)
  else .ok (s.putReg (mbox + o) v lk)

end Sys2Proof.Machine
end

