-- ==== Sys2Proof/Machine/Damper.lean ====
section
/-!
DEFINITION. The damper (11 R299 to R324): table sets, pads behind the quench gate, limits, causes and clears, the
ECMT vector, and the two-key edit.
-/
namespace Sys2Proof.Machine
open Sys2Proof

def damper : Nat := 0x40050000
def firing : Nat := 0x40060000

def allOuts : List (Fin 96) := List.finRange 96

/-! ## The island's time (R313) -/

/-- The time the island has counted at instant `t`, in ns of its cycles: true time on the reference, else that of the backup
oscillator, whose rate of 20 to 40 MHz is open (17 Table PW-1; log entry 39). -/
def Damper.time (d : Damper) (t : Nat) : Nat := d.clk + (if d.bk then (t - d.mark) * d.rate / 25000 else t - d.mark)

def State.dnow (s : State) : Nat := s.dm.time s.now

/-- The island changes its oscillator (R313). -/
def State.setBk (s : State) (b : Bool) : State :=
  { s with dm := { s.dm with clk := s.dnow, mark := s.now, bk := b, rate := 20000 + Config.freeNat s.free % 20001 }, free := s.free + 1 }

/-! ## Table sets (R301 to R303) -/

/-- Base of table set `k`, which is its own memory. -/
def setBase (k : Bool) : Nat := if k then damper + 0x2000 else damper + 0x1000

/-- The damper-table selector, which a reblock switches before the damper acts on it (R306, 16 R446). -/
def State.dsel (s : State) : Bool := s.dset != s.dm.vec.any (fun v => v.swap)

/-- A word of the active set. -/
def State.tab (s : State) (o : Nat) : Word := s.rd32 (setBase s.dset + o)

/-- Word `i` of an output record (Table DF-2). -/
def State.orec (s : State) (o : Fin 96) (i : Nat) : Word := s.tab (16 * o.val + 4 * i)

def State.oMode (s : State) (o : Fin 96) : Nat := fld (s.orec o 2) 16 2
def State.oPhase (s : State) (o : Fin 96) : Nat := fld (s.orec o 2) 6 2
def State.oGroup (s : State) (o : Fin 96) : Fin 16 := fin 16 (fld (s.orec o 2) 8 4)
def State.oOwner (s : State) (o : Fin 96) : Hid := fin 64 (fld (s.orec o 2) 0 6)
def State.oCt (s : State) (o : Fin 96) : Nat := fld (s.orec o 2) 12 4
def State.inom (s : State) (o : Fin 96) : Nat := fld (s.orec o 1) 16 16

/-- DUTY in ns, as R313 judges it; none where it is no limit. -/
def State.duty (s : State) (o : Fin 96) : Option Nat :=
  let d := fld (s.orec o 0) 0 10
  if d = 1000 then none else some ((if s.dm.bk then d * 7 / 8 else d) * 1000000)

/-- MAXON in ns; none where it is no limit. -/
def State.maxon (s : State) (o : Fin 96) : Option Nat :=
  let d := fld (s.orec o 0) 16 16
  if d = 0 then none else some ((if s.dm.bk then d * 7 / 8 else d) * 1000000)

/-- MINOFF in ns. -/
def State.minoff (s : State) (o : Fin 96) : Nat :=
  let d := fld (s.orec o 1) 0 16
  (if s.dm.bk then (d * 9 + 7) / 8 else d) * 100000

/-- Words of the other records (Table DF-3). -/
def State.chLo (s : State) (c : Fin 48) : Int := sgn 24 (fld (s.tab (0x600 + 16 * c.val)) 0 24)
def State.chHi (s : State) (c : Fin 48) : Int := sgn 24 (fld (s.tab (0x604 + 16 * c.val)) 0 24)
def State.chEn (s : State) (c : Fin 48) : Bool := tb (s.tab (0x604 + 16 * c.val)) 31
def State.chGroups (s : State) (c : Fin 48) : Word := s.tab (0x608 + 16 * c.val)
def State.ebud (s : State) (g : Fin 16) : Nat := (s.tab (0x900 + 8 * g.val)).toNat
def State.ewin (s : State) (g : Fin 16) : Nat := fld (s.tab (0x904 + 8 * g.val)) 0 16
def State.ilim (s : State) (p : Fin 3) : Nat := fld (s.tab (0x980 + 4 * p.val)) 0 16
def State.ctfs (s : State) (j : Fin 12) : Nat := fld (s.tab (0x9A0 + 4 * j.val)) 0 16
def State.vnom (s : State) : Nat := fld (s.tab 0x990) 0 16
def State.dmpage (s : State) : Nat := fld (s.tab 0x990) 16 8
def State.ahold (s : State) : Nat := fld (s.tab 0x990) 24 8
def State.cttol (s : State) : Nat := fld (s.tab 0x994) 0 8
def State.ctn (s : State) : Nat := fld (s.tab 0x994) 8 4
def State.cttrip (s : State) : Bool := tb (s.tab 0x994) 12

/-! ### Validity (R304) -/

/-- The words of a set, by word offset: `f` reads the word at a byte offset. -/
def setOutputOk (f : Nat → Word) (o : Nat) : Bool :=
  let w0 := f (16 * o)
  let w2 := f (16 * o + 8)
  let mode := fld w2 16 2
  let ph := fld w2 6 2
  let ct := fld w2 12 4
  let pair := if o % 2 = 0 then o + 1 else o - 1
  decide (fld w0 0 10 ≤ 1000) && fld w0 10 6 == 0 && fld w2 19 13 == 0 && f (16 * o + 12) == 0 && !within 12 ct 14
    && (mode != 3 || (decide (80 ≤ o) && fld (f (16 * pair + 8)) 16 2 == 3 && ph == 3))
    && ((mode != 1 && mode != 2) || decide (ph ≤ 2))
    && (ct == 15 || mode == 0 || fld (f (0x9A0 + 4 * ct)) 0 16 != 0)

def setChannelOk (f : Nat → Word) (c : Nat) : Bool :=
  let w0 := f (0x600 + 16 * c)
  let w1 := f (0x604 + 16 * c)
  let w2 := f (0x608 + 16 * c)
  fld w0 24 8 == 0 && fld w1 24 7 == 0 && fld w2 16 16 == 0 && f (0x60C + 16 * c) == 0
    && (!tb w1 31 || (decide (sgn 24 (fld w0 0 24) ≤ sgn 24 (fld w1 0 24)) && fld w2 0 16 != 0))

/-- All outputs of a CT channel have one phase. -/
def setCtOk (f : Nat → Word) (j : Nat) : Bool :=
  match ((List.range 96).filter (fun o => fld (f (16 * o + 8)) 12 4 == j)).map (fun o => fld (f (16 * o + 8)) 6 2) with
  | [] => true
  | p :: r => r.all (fun q => q == p)

def setGlobalOk (f : Nat → Word) : Bool :=
  let g0 := f 0x990
  let g1 := f 0x994
  within 1 (fld g0 0 16) 1000 && fld g0 16 8 != 0 && fld g0 24 8 != 0 && within 1 (fld g1 0 8) 99
    && fld g1 8 4 != 0 && fld g1 13 19 == 0 && f 0x998 == 0 && f 0x99C == 0

/-- A table set is valid (R304). -/
def setValid (f : Nat → Word) : Bool :=
  (List.range 96).all (setOutputOk f) && (List.range 48).all (setChannelOk f) && (List.range 12).all (setCtOk f)
    && (List.range 16).all (fun g => fld (f (0x904 + 8 * g)) 16 16 == 0)
    && (List.range 3).all (fun p => fld (f (0x980 + 4 * p)) 16 16 == 0) && f 0x98C == 0
    && (List.range 12).all (fun j => fld (f (0x9A0 + 4 * j)) 16 16 == 0) && setGlobalOk f
    && (List.range 396).all (fun i => f (0x9D0 + 4 * i) == 0)

/-- Validity of set `k` as it stands. -/
def State.setOk (s : State) (k : Bool) : Bool := setValid (fun o => s.rd32 (setBase k + o))

/-! ## Pads -/

def State.outp (s : State) (o : Fin 96) : Outp := s.dm.out[o]
def State.setOutp (s : State) (o : Fin 96) (x : Outp) : State := { s with dm := { s.dm with out := s.dm.out.set o x } }
def State.modOutp (s : State) (o : Fin 96) (f : Outp → Outp) : State := s.setOutp o (f (s.outp o))
def State.mapOuts (s : State) (f : Fin 96 → Outp → Outp) : State :=
  { s with dm := { s.dm with out := Vector.ofFn (fun o => f o s.dm.out[o]) } }
def State.ph (s : State) (p : Fin 3) : PhaseSt := s.dm.ph[p]
def State.setPh (s : State) (p : Fin 3) (x : PhaseSt) : State := { s with dm := { s.dm with ph := s.dm.ph.set p x } }

/-- The quench bit of an output (R314). -/
def Outp.quenched (x : Outp) : Bool := x.mask != 0

/-- The pad is on at instant `t` (R299). -/
def Outp.onAt' (x : Outp) (t : Nat) : Bool :=
  match x.win with
  | none => false
  | some (a, none) => decide (a ≤ t)
  | some (a, some b) => decide (a ≤ t) && decide (t < b)

def State.padOn (s : State) (o : Fin 96) : Bool := (s.outp o).onAt' s.dnow

/-- The part of an on-time from `a` to `b` that lies in `lo`..`hi`. -/
def overlap (a b lo hi : Nat) : Nat := min b hi - max a lo

/-- The on-time of the present window in `lo`..`hi`. -/
def Outp.winTime (x : Outp) (lo hi : Nat) : Nat :=
  match x.win with
  | none => 0
  | some (a, b) => overlap a (b.getD hi) lo hi

/-- When the first of the 100 bins of 10 ms begins that count at `t` (R309). -/
def State.binStart (s : State) (t : Nat) : Nat := s.dm.born + ((t - s.dm.born) / 10000000 - 99) * 10000000

/-- ON1s in ns at instant `t`. -/
def State.on1sAt (s : State) (o : Fin 96) (t : Nat) : Nat :=
  let x := s.outp o
  x.hist.foldl (fun n w => n + overlap w.1 w.2 (s.binStart t) t) (x.winTime (s.binStart t) t)

def State.on1s (s : State) (o : Fin 96) : Nat := s.on1sAt o s.dnow

/-- The continuous on-time in ns at `t`: of the pad, or of the PWM pair's enable (R309). -/
def State.conAt (s : State) (o : Fin 96) (t : Nat) : Nat :=
  let x := s.outp o
  if s.oMode o = 3 then
    match x.en with
    | some a => t - a
    | none => 0
  else match x.win with
    | some (a, _) => if x.onAt' t then t - a else 0
    | none => 0

def State.con (s : State) (o : Fin 96) : Nat := s.conAt o s.dnow

/-- When a pad that is off at `t` last turned off. -/
def Outp.offSince (x : Outp) (t : Nat) : Nat :=
  match x.win with
  | some (a, some b) => if a < b && decide (b ≤ t) then b else x.offAt
  | _ => x.offAt

/-- The off-time in ns at `t`, 0 while on. -/
def State.offAt (s : State) (o : Fin 96) (t : Nat) : Nat :=
  let x := s.outp o
  if s.oMode o = 3 then (if x.en.isSome then 0 else t - x.enOff)
  else if x.onAt' t then 0 else t - x.offSince t

def State.offTime (s : State) (o : Fin 96) : Nat := s.offAt o s.dnow

/-- Pad energy up to now goes to the groups: INOM x 0.1 A x VNOM x length (R312). -/
def State.settle (s : State) : State :=
  let en := allOuts.foldl (fun (v : Vector Nat 16) o =>
    let t := (s.outp o).winTime s.dm.base s.dnow
    if t = 0 then v else v.set (s.oGroup o) (v[s.oGroup o] + s.inom o * s.vnom * t)) s.dm.en
  { s with dm := { s.dm with en := en, base := s.dnow } }

/-- The energy of a group in its window, in units of 10^-10 J. -/
def State.groupEn (s : State) (g : Fin 16) : Nat :=
  allOuts.foldl (fun n o =>
    let t := (s.outp o).winTime s.dm.base s.dnow
    if t ≠ 0 && s.oGroup o == g then n + s.inom o * s.vnom * t else n) s.dm.en[g]

/-- A window ends at `t`, or at its planned end if that is earlier. -/
def Outp.close (x : Outp) (t : Nat) : Outp :=
  match x.win with
  | none => x
  | some (a, b) =>
    let e := min (b.getD t) t
    if a < e then { x with win := none, offAt := e, hist := (a, e) :: x.hist.filter (fun w => decide (t < w.2 + 1000000000)) }
    else { x with win := none }

/-- A pad turns on from `a`, until `b` if planned, with MINOFF `m` in force (R309). -/
def Outp.open' (x : Outp) (a : Nat) (b : Option Nat) (m : Nat) : Outp :=
  { x.close a with win := some (a, b), early := decide (a - (x.close a).offAt < m) }

/-- The pad of an output switches at `t`, no later than the last settlement: its present window ends, and with `w` another begins
that ends at `w` where that is planned. The energy settled is that of the pad as it was (R312). -/
def State.switch (s : State) (o : Fin 96) (t : Nat) (w : Option (Option Nat)) : State :=
  let x := s.outp o
  let base := s.dm.base
  let kept := match x.win with
    | some (a, e) => overlap a (min (e.getD t) t) 0 base
    | none => 0
  let more := match w with
    | some e => overlap t (e.getD base) 0 base
    | none => 0
  let q := s.inom o * s.vnom
  let g := s.oGroup o
  ({ s with dm := { s.dm with en := s.dm.en.set g (s.dm.en[g] + q * (kept + more) - q * x.winTime 0 base) } } : State).setOutp o
    (match w with
      | some e => x.open' t e (s.minoff o)
      | none => x.close t)

/-- The load of a phase: INOM of its MODE 1 and 2 outputs whose pads are on (R311). -/
def State.phLoad (s : State) (p : Fin 3) : Nat :=
  allOuts.foldl (fun n o =>
    if s.padOn o && s.oPhase o == p.val && (s.oMode o == 1 || s.oMode o == 2) then n + s.inom o else n) 0

/-- Whether a phase's load is above its limit. -/
def State.phOver (s : State) (p : Fin 3) : Bool := s.ilim p != 0xFFFF && decide (s.ilim p < s.phLoad p)

/-- A new latch in DCAUSE is held as an edge for the wake from a sleep state, from the request on (17 Table PW-7, bit 17). -/
def State.noteWake (s : State) : State :=
  if s.pw.sleep.isSome || s.pw.st == 1 || s.pw.st == 2 then { s with pw := { s.pw with edges := s.pw.edges ++ [(17, s.now)] } } else s

/-- After pads or limits changed: since when each phase is above its limit. -/
def State.noteLoad (s : State) : State :=
  (List.finRange 3).foldl (fun (s : State) p =>
    let x := s.ph p
    s.setPh p { x with ovl := if s.phOver p then (match x.ovl with
      | some t => some t
      | none => some s.dnow) else none }) s

/-! ## Causes (Table DF-4) -/

/-- An output whose OUT cause is active: DUTY or MINOFF (Table DF-4). -/
def State.outAct (s : State) (o : Fin 96) : Bool :=
  s.oMode o != 0 &&
    ((match s.duty o with
      | some d => decide (d < s.on1s o)
      | none => false)
     || ((s.outp o).early && decide (s.offTime o < s.minoff o)))

/-- The groups of the outputs on a CT channel. -/
def State.ctGroups (s : State) (j : Fin 12) (g : Fin 16) : Bool :=
  allOuts.any (fun o => s.oCt o == j.val && s.oGroup o == g)

/-- Whether a hearth keeps OWNER active: in hearth fault, or held in reset by HRST. -/
def State.ownerBad (s : State) (h : Hid) : Bool := (s.hearth h).run == .faulted || s.hrst.getLsbD h.val

/-- The GS supervisor hearth is in hearth fault. -/
def State.supvBad (s : State) : Bool := allHearths.any (fun h => (s.hearth h).gsh && (s.hearth h).run == .faulted)

/-- Whether cause `b` is active for an output. -/
def State.active (s : State) (o : Fin 96) (b : Nat) : Bool :=
  if b = 0 then s.dm.pinAct
  else if b = 1 then s.outAct o
  else if b = 2 then (List.finRange 48).any (fun c => s.dm.ch.getLsbD c.val && s.chEn c && tb (s.chGroups c) (s.oGroup o).val)
  else if b = 3 then (List.finRange 3).any (fun p => s.dm.phAct.getLsbD p.val && s.oPhase o == p.val)
  else if b = 4 then s.dm.grp.getLsbD (s.oGroup o).val
  else if b = 5 then (List.finRange 12).any (fun j => s.dm.ct[j].act && s.cttrip && s.ctGroups j (s.oGroup o))
  else if b = 6 then s.dm.bowAct
  else if b = 7 then s.ownerBad (s.oOwner o)
  else if b = 8 then s.supvBad
  else if b = 9 then (s.outp o).aged
  else if b = 10 then s.dm.tamp
  else if b = 11 then s.dm.drt
  else if b = 13 then s.dm.slp
  else if b = 14 then !s.xb.released || s.pw.hold
  else false

/-- Whether cause `b` is active in the device (DCAUSEA): for some output, or for a phase, group or channel without one. -/
def State.causeOn (s : State) (b : Nat) : Bool :=
  allOuts.any (fun o => s.active o b)
    || (b == 2 && (List.finRange 48).any (fun c => s.dm.ch.getLsbD c.val && s.chEn c))
    || (b == 3 && s.dm.phAct != 0) || (b == 4 && s.dm.grp != 0)
    || (b == 5 && s.cttrip && (List.finRange 12).any (fun j => s.dm.ct[j].act))

/-- The active causes of an output. -/
def State.activeMask (s : State) (o : Fin 96) : BitVec 16 :=
  (List.range 16).foldl (fun m b => if s.active o b then m ||| BitVec.ofNat 16 (2 ^ b) else m) 0

/-- The index DTRIP shows: the given one, the one output latched, else the spec leaves open which (log entry 2). -/
def tripIdx (idx : Option Nat) (hit : List (Fin 96)) (free : Word) : Nat :=
  match idx, hit with
  | some i, _ => i
  | none, [o] => o.val
  | none, _ => fld free 0 7

/-- Bits that latch in damper cycle `c`, beside those that already did (R316). -/
def Outp.noteLat (x : Outp) (c b : Nat) : Outp :=
  { x with lat := (c, (if x.lat.1 = c then x.lat.2 else 0) ||| BitVec.ofNat 16 (2 ^ b)) }

/-- Cause `b` latches in the outputs of its scope (R314): DCAUSE, the pads off, DTRIP, DTRIPE and line 8 where a mask
left zero, and the automatic remote quench of R317. A bit set already is noted as latched again in this damper cycle where the cause is
one that ends at once: OUT, REMOTE and SW (R316). -/
def State.latch (s0 : State) (b : Nat) (idx : Option Nat) (scope : Fin 96 → Bool) : State :=
  let again := b == 1 || b == 12 || b == 15
  let s := if again then s0.mapOuts (fun o x => if scope o && x.mask.getLsbD b then x.noteLat (s0.dnow / 40) b else x) else s0
  let hit := allOuts.filter (fun o => scope o && !(s.outp o).mask.getLsbD b)
  if hit.isEmpty then s
  else
    let first := hit.any (fun o => !(s.outp o).quenched)
    let s1 := s.settle.mapOuts (fun o x =>
      if hit.contains o then { ((x.close s.dnow).noteLat (s.dnow / 40) b) with mask := x.mask ||| BitVec.ofNat 16 (2 ^ b) } else x)
    let s2 := s1.noteLoad.noteWake.modReg (damper + 0x008) (fun w => setBit w b true)
    let s3 := if first then
        ({ (s2.setReg (damper + 0x044) (w32 (tripIdx idx hit (Config.freeWord s.free) + b * 2 ^ 8) ||| bitAt true 31)).setReg
            (damper + 0x048) (w32 s.ep.cur) with free := s.free + 1 } : State).raiseAll 8
      else s2
    if (b = 0 || b = 2 || b = 10) && tb (s3.reg damper) 1 then s3.sendQuench 0xFFFF else s3

/-- A damper cycle: every active cause sets its bit in the outputs of its scope (R314). -/
def State.sweep (s : State) : State :=
  let s1 := (List.range 15).foldl (fun (s : State) b =>
    if b = 1 || b = 2 || b = 9 then s
    else if b = 3 then (List.finRange 3).foldl (fun (s : State) p =>
      if s.dm.phAct.getLsbD p.val then s.latch 3 (some p.val) (fun o => s.oPhase o == p.val) else s) s
    else if b = 4 then (List.finRange 16).foldl (fun (s : State) g =>
      if s.dm.grp.getLsbD g.val then s.latch 4 (some g.val) (fun o => s.oGroup o == g) else s) s
    else if b = 5 then (List.finRange 12).foldl (fun (s : State) j =>
      if s.dm.ct[j].act && s.cttrip then s.latch 5 (some j.val) (fun o => s.ctGroups j (s.oGroup o)) else s) s
    else s.latch b none (fun o => s.active o b)) s
  let s2 := allOuts.foldl (fun (s : State) o =>
    let t := if s.active o 1 then s.latch 1 (some o.val) (fun q => q == o) else s
    if t.active o 9 then t.latch 9 (some o.val) (fun q => q == o) else t) s1
  (List.finRange 48).foldl (fun (s : State) c =>
    if s.dm.ch.getLsbD c.val && s.chEn c then s.latch 2 (some c.val) (fun o => tb (s.chGroups c) (s.oGroup o).val) else s) s2

/-- OUT (R309): an output breaks DUTY or MAXON, or has turned on before its MINOFF had passed. -/
def execOut (o : Fin 96) (s : State) : Out :=
  let long := match s.maxon o with
    | some m => decide (m < s.con o)
    | none => false
  if s.oMode o = 0 || !(long || s.outAct o) then .next s
  else .next (s.latch 1 (some o.val) (fun q => q == o))

/-- A channel's condition begins (R310). -/
def State.chTrip (s : State) (c : Fin 48) : State :=
  ({ s with dm := { s.dm with ch := s.dm.ch ||| BitVec.ofNat 48 (2 ^ c.val), good := s.dm.good &&& ~~~(BitVec.ofNat 48 (2 ^ c.val)) } } : State).latch
    2 (some c.val) (fun o => tb (s.chGroups c) (s.oGroup o).val)

/-- A raw code reaches the damper (R310). -/
def State.damperCode (s : State) (c : Fin 48) (code : BitVec 24) : State :=
  let bit := BitVec.ofNat 48 (2 ^ c.val)
  let s1 := { s with dm := { s.dm with chAt := s.dm.chAt.set c (Int.ofNat s.dnow) } }
  if !s.chEn c then s1
  else if code.toInt < s.chLo c || s.chHi c < code.toInt then s1.chTrip c
  else if s.dm.good.getLsbD c.val then { s1 with dm := { s1.dm with ch := s1.dm.ch &&& ~~~bit } }
  else { s1 with dm := { s1.dm with good := s1.dm.good ||| bit } }

/-- RAW_CODE (R310): the oldest code of a channel on its way arrives. -/
def execRawCode (c : Fin 48) (s : State) : Out :=
  match s.afe.sent.find? (fun x => x.1 == c) with
  | some x => .next (({ s with afe := { s.afe with sent := s.afe.sent.erase x } } : State).damperCode c x.2)
  | none => .next s

/-- PHASE (R311): the load has been above ILIM for more than 25 damper cycles. -/
def execPhase (p : Fin 3) (s : State) : Out :=
  match (s.ph p).ovl with
  | some t =>
    if t + 1000 < s.dnow then
      .next (({ s with dm := { s.dm with phAct := s.dm.phAct ||| BitVec.ofNat 3 (2 ^ p.val) } } : State).latch 3 (some p.val)
        (fun o => s.oPhase o == p.val))
    else .next s
  | none => .next s

/-- GROUP (R312): the energy in mJ passes EBUD. -/
def execGroup (g : Fin 16) (s : State) : Out :=
  if s.ewin g ≠ 0 && decide (s.ebud g * 1000 < s.groupEn g / 10000000) then
    .next (({ s with dm := { s.dm with grp := s.dm.grp ||| BitVec.ofNat 16 (2 ^ g.val) } } : State).latch 4 (some g.val)
      (fun o => s.oGroup o == g))
  else .next s

/-- The energy window of a group starts at `t` with 0 (R306, R307, R312). -/
def State.startWin (s : State) (g : Fin 16) (t : Nat) : State :=
  let s1 := s.settle
  { s1 with dm := { s1.dm with
      en := s1.dm.en.set g 0, gwin := s1.dm.gwin.set g t, grp := s1.dm.grp &&& ~~~(BitVec.ofNat 16 (2 ^ g.val)) } }

/-- GROUP_WINDOW_END (R312): EWIN seconds have passed. -/
def execGroupWindowEnd (g : Fin 16) (s : State) : Out :=
  let e := s.dm.gwin[g] + s.ewin g * 1000000000
  if s.ewin g ≠ 0 && decide (e ≤ s.dnow) then .next (s.startWin g e) else .next s

/-- QUENCH_N goes low (Table DF-4). -/
def execQuenchN (s : State) : Out :=
  .next (({ s with dm := { s.dm with pin := true, pinAct := true } } : State).latch 0 none (fun _ => true))

/-- QUENCH_N_HIGH: QPIN clears and the 10 µs start (Table DF-4). -/
def execQuenchNHigh (s : State) : Out := .next { s with dm := { s.dm with pin := false, pinAt := s.dnow } }

/-- PIN_CAUSE_GONE: QUENCH_N has been high for 10 µs (Table DF-4). -/
def execPinCauseGone (s : State) : Out :=
  if !s.dm.pin && decide (s.dm.pinAt + 10000 ≤ s.dnow) then .next { s with dm := { s.dm with pinAct := false } } else .next s

/-- BOW_CAUSE_GONE (17 R475): 100 µs have passed since VDD_IO last recovered. -/
def execBowCauseGone (s : State) : Out :=
  if !s.dm.bow && decide (s.dm.bowAt + 100000 ≤ s.dnow) then .next { s with dm := { s.dm with bowAct := false } } else .next s

/-- A remote quench acts on this device (R317). -/
def State.remoteQuench (s : State) (src : BitVec 14) (mask : Nat) : State :=
  let s1 := s.setReg (damper + 0x064) (w32 (src.toNat + mask % 2 ^ 16 * 2 ^ 16))
  if tb (s.reg damper) 0 then
    s1.latch 12 ((List.range 16).find? (fun g => decide (mask % 2 ^ 16 = 2 ^ g))) (fun o => (w32 mask).getLsbD (s.oGroup o).val)
  else s1

/-! ## Demands and epochs (R321 to R324) -/

/-- The age policy of an output: AGE is active from the limit until the age is 0 (R323). -/
def State.ageJudge (s : State) : State :=
  s.mapOuts (fun o x =>
    if x.age = 0 then { x with aged := false }
    else if s.oMode o ≠ 0 && decide (s.dmpage + (if tb (s.orec o 2) 18 then s.ahold else 0) ≤ x.age) then { x with aged := true }
    else x)

/-- An output at a vector (R321). -/
def Outp.vector (x : Outp) (ok : Bool) : Outp :=
  if ok then { x with live := x.draft, age := 0 } else { x with draft := x.live, age := min 255 (x.age + 1) }

/-- After the limits in force changed: newly enabled channels start their absence count (R310). -/
def State.newLimits (s : State) (was : Fin 48 → Bool) : State :=
  { s with dm := { s.dm with
      chAt := Vector.ofFn (fun c => if s.chEn c && !was c then Int.ofNat s.dnow else s.dm.chAt[c])
      ch := (List.finRange 48).foldl (fun m c => if s.chEn c then m else m &&& ~~~(BitVec.ofNat 48 (2 ^ c.val))) s.dm.ch
      good := (List.finRange 48).foldl (fun m c => if s.chEn c && was c then m else m &&& ~~~(BitVec.ofNat 48 (2 ^ c.val))) s.dm.good } }

def destat : Nat := damper + 0x054

/-- An armed edit is written into the active set (R307). -/
def State.applyEdit (s : State) : State :=
  let n := fld (s.reg (damper + 0x058)) 0 5
  let off := fun i => fld (s.reg (damper + 0x080 + 8 * i)) 0 12
  let s1 := (List.range n).foldl (fun (s : State) i =>
    s.wr32 (setBase s.dset + off i) (s.reg (damper + 0x084 + 8 * i))) s.settle
  let s2 := (List.finRange 16).foldl (fun (s : State) g =>
    if (List.range n).any (fun i => within (0x900 + 8 * g.val) (off i) (0x907 + 8 * g.val)) then s.startWin g s.dnow else s) s1
  ((s2.newLimits s.chEn).modReg destat (fun w => setBit (setBit w 0 false) 1 true)).raiseAll 15

/-- The swap of a reblock reaches the damper (R306): the edit armed for the same boundary is lost (R308). -/
def State.swapSet (s : State) : State :=
  let s1 := { s.settle with dset := !s.dset }
  let s2 := (List.finRange 16).foldl (fun (s : State) g => s.startWin g s.dnow) s1
  let s3 := s2.newLimits s.chEn
  if tb (s3.reg destat) 0 then s3.modReg destat (fun w => setBit (setBit w 0 false) 3 true) else s3

/-- The vector under way arrives (R321). -/
def State.vectorIn (s : State) : State :=
  match s.dm.vec with
  | none => s
  | some v =>
    let s1 := if v.swap then s.swapSet else if tb (s.reg destat) 0 then s.applyEdit else s
    let s2 := s1.mapOuts (fun o x => x.vector (v.ecmt.getLsbD (s1.oOwner o).val))
    ({ s2 with dm := { s2.dm with vec := none, last := some (s.dnow, v.per), ticks := 0 } } : State).ageJudge.noteLoad.sweep

/-- ECMT_VECTOR (R321). -/
def execEcmtVector (s : State) : Out := .next s.vectorIn

/-- DAMPER_TICK (R324): a tick counted by the island itself, 1.5 x P after the last vector and each P after that. -/
def execDamperTick (s : State) : Out :=
  match s.dm.last with
  | none => .next s
  | some (t, p) =>
    if t + (3 * p) / 2 + s.dm.ticks * p ≤ s.dnow then
      .next ({ s.mapOuts (fun _ x => { x with age := min 255 (x.age + 1) }) with
        dm := { (s.mapOuts (fun _ x => { x with age := min 255 (x.age + 1) })).dm with ticks := s.dm.ticks + 1 } } : State).ageJudge.sweep
    else .next s

/-! ## The two-key edit (R307) -/

/-- REJ with its reason; a pending key and an arm are cleared. -/
def State.rejectKey (s : State) (why : Nat) : State :=
  { s.modReg destat (fun w => putF (setBit (setBit w 0 false) 2 true) 4 3 why) with dm := { s.dm with key := none } }

/-- The set as the staged entries would leave it is valid (R307 step 4). -/
def State.editOk (s : State) : Bool :=
  let n := fld (s.reg (damper + 0x058)) 0 5
  setValid (fun o =>
    (List.range n).foldl (fun w i =>
      if fld (s.reg (damper + 0x080 + 8 * i)) 0 12 = o then s.reg (damper + 0x084 + 8 * i) else w) (s.tab o))

/-- A key that has waited longer than 1 ms is gone. -/
def State.keyLate (s : State) : Bool :=
  match s.dm.key with
  | some (_, t) => decide (t + 1000000 < s.dnow)
  | none => false

/-- A write of `v` to DKEY by hearth `h` in GS. -/
def State.dkey (s : State) (h : Hid) (v : Word) : State :=
  let s := if s.keyLate then s.rejectKey 2 else s
  if tb (s.reg destat) 0 then s.rejectKey 1
  else if v = 0x6D then
    (if s.dm.key.isSome then s.rejectKey 1 else { s with dm := { s.dm with key := some (h, s.dnow) } })
  else if v = 0x92 then
    match s.dm.key with
    | none => s.rejectKey 1
    | some (k, _) =>
      if k = h then s.rejectKey 1
      else if s.editOk then { s.modReg destat (fun w => setBit w 0 true) with dm := { s.dm with key := none } }
      else s.rejectKey 3
  else s.rejectKey 0

/-- KEY_TIMEOUT (R307): no second key within 1 ms. -/
def execKeyTimeout (s : State) : Out :=
  match s.dm.key with
  | some (_, t) => if t + 1000000 ≤ s.dnow then .next (s.rejectKey 2) else .next s
  | none => .next s

/-! ## Quench and clear (R314, R315) -/

/-- DQSETk: SW latches for the outputs named. -/
def State.dqset (s : State) (k : Nat) (v : Word) : State :=
  s.latch 15 none (fun o => decide (o.val / 32 = k) && tb v (o.val % 32))

/-- The bits of an output that a clear at `t` leaves set: those whose cause is active, and those that latch in this damper cycle
(R315, R316). -/
def Outp.stays (x : Outp) (act : BitVec 16) (t : Nat) : BitVec 16 :=
  x.mask &&& (act ||| (if x.lat.1 = t / 40 then x.lat.2 else 0))

/-- An output after a clear (R315): bits whose cause is gone are cleared. -/
def Outp.cleared (x : Outp) (act : BitVec 16) (t : Nat) : Outp :=
  if x.mask = 0 then x
  else if x.stays act t = 0 then { x with mask := 0, e := 32768, clr := some t, early := false }
  else { x with mask := x.stays act t }

/-- DQCLRk (R315). -/
def State.dqclr (s : State) (k : Nat) (v : Word) : State :=
  let named := allOuts.filter (fun o => decide (o.val / 32 = k) && tb v (o.val % 32))
  let rest := named.foldl (fun (m : BitVec 16) o => m ||| ((s.outp o).mask &&& s.activeMask o)) 0
  let s1 := s.mapOuts (fun o x => if named.contains o then x.cleared (s.activeMask o) s.dnow else x)
  s1.setReg (damper + 0x040) (w32 rest.toNat ||| bitAt (rest != 0) 31)

/-! ## The DAMPER registers (R305, R332, Table DF-6) -/

/-- Whether FAULT_N is asserted by the damper (R318). -/
def State.damperFault (s : State) : Bool :=
  allOuts.any (fun o => w32 (s.outp o).mask.toNat &&& (w32 (fld (s.reg damper) 16 16) ||| 0x100) != 0)

/-- DSTAT as it reads. -/
def State.dstat (s : State) : Word :=
  bitAt s.dsel 0 ||| bitAt s.dm.bk 1 ||| bitAt (allOuts.any (fun o => (s.outp o).quenched)) 2 ||| bitAt s.dm.pin 3 ||| bitAt s.dm.bow 4

/-- Bits of 32 outputs. -/
def bits32 (k : Nat) (f : Fin 96 → Bool) : Word :=
  allOuts.foldl (fun w o => if o.val / 32 = k && f o then w ||| w32 (2 ^ (o.val % 32)) else w) 0

/-- A read of the DAMPER block at offset `o`. -/
def State.damperRead (s : State) (_w : Who) (o : Nat) : BusR :=
  if o = 0 then .ok (s.reg damper ||| 0x01000000, s)
  else if o = 4 then .ok (s.dstat, s)
  else if o = 0xC then .ok ((List.range 16).foldl (fun w b => w ||| bitAt (s.causeOn b) b) 0, s)
  else if within 0x10 o 0x1B then .ok (bits32 ((o - 0x10) / 4) (fun q => (s.outp q).quenched), s)
  else if within 0x100 o 0x15F then
    .ok (w32 (leNat ((List.range 4).map (fun j => BitVec.ofNat 8 (s.outp (fin 96 (o - 0x100 + j))).age))), s)
  else if within 0x200 o 0x37F then
    (let q := fin 96 ((o - 0x200) / 4)
     .ok (w32 (min 1023 (s.on1s q / 1000000) + min 65535 (s.con q / 1000000) * 2 ^ 16), s))
  else if within 0x400 o 0x57F then
    (let q := fin 96 ((o - 0x400) / 4)
     .ok (w32 ((s.outp q).mask.toNat + (s.activeMask q).toNat * 2 ^ 16), s))
  else if within 0x600 o 0x63F then .ok (w32 (s.groupEn (fin 16 ((o - 0x600) / 4)) / 10000000000), s)
  else if within 0x1000 o 0x2FFF then .ok (s.rd32 (damper + o), s)
  else .ok (s.reg (damper + o), s)

/-- A hearth acting in GS. -/
def gsHearth (w : Who) : Option Hid := if whoGs w then w.hearth else none

/-- Set `k` may be written by a master (R305); `armed` is whether a reblock that uses the shadow is armed, `boot`
whether start-up runs. -/
def State.setWritable (s : State) (w : Who) (k : Bool) (armed boot : Bool) : Bool :=
  ((gsHearth w).isSome && k != s.dsel && !armed) || (w.master == 0 && ((boot && !k) || (k != s.dsel && !armed)))

/-- DED* fields with reserved values left out (R12). -/
def State.dedWrite (s : State) (o : Nat) (v : Word) : State :=
  if o = 0x58 && decide (16 < fld v 0 5) then s
  else if o ≠ 0x58 && (o - 0x80) % 8 == 0 && decide (0x9CC < fld v 0 12 - fld v 0 2) then s
  else s.putReg (damper + o) v false

/-- A write to the DAMPER block at offset `o` (R332). -/
def State.damperWrite (s : State) (w : Who) (armed boot : Bool) (o : Nat) (v : Word) : BusW :=
  let lk := tb (s.reg damper) 8
  if within 0x1000 o 0x2FFF then
    (if s.setWritable w (decide (0x2000 ≤ o)) armed boot then .ok (s.wr32 (damper + o) v)
     else .error (if (gsHearth w).isSome || w.master == 0 then 5 else 2))
  else match gsHearth w with
    | some h =>
      if o = 0x50 then .ok (s.dkey h v)
      else if o = 0x58 || within 0x80 o 0xFF then
        .ok (if tb (s.reg destat) 0 then (s.dedWrite o v).rejectKey 4 else s.dedWrite o v)
      else if within 0x20 o 0x2B then .ok (s.dqset ((o - 0x20) / 4) v)
      else if within 0x30 o 0x3B then .ok (s.dqclr ((o - 0x30) / 4) v)
      else if o = 0x60 then .ok (s.sendQuench (fld v 0 16))
      else .ok (s.putReg (damper + o) v lk)
    | none => if w.master == 0 && o == 0 then .ok (s.putReg damper v false) else .error 2

end Sys2Proof.Machine
end

