-- ==== Sys2Proof/Machine/Firing.lean ====
section
/-!
DEFINITION. The firing scheduler (11 R320, R325 to R331, R333): demands, half-cycles, PWM pairs and current
transformers.
-/
namespace Sys2Proof.Machine
open Sys2Proof

/-- An event of the FIRING block (FEVT, FEVTEN, line 9). -/
def State.fireEvent (s : State) (b : Nat) : State := s.event (firing + 0x010) (firing + 0x014) 9 b

/-! ## Zero crossings (R325) -/

/-- The intervals between neighbouring edges, newest first. -/
def gapsOf : List Nat → List Nat
  | a :: b :: r => (a - b) :: gapsOf (b :: r)
  | _ => []

/-- The sum of the last 8 half-cycles. -/
def PhaseSt.sum8 (x : PhaseSt) : Nat := (gapsOf (x.edges.take 9)).foldl (· + ·) 0

/-- The predicted half-cycle in ns: the mean of the last 8. -/
def PhaseSt.half (x : PhaseSt) : Nat := x.sum8 / 8

/-- Whether the mean fits the set frequency, or 45 to 65 Hz where it is detected (R325). -/
def lineOk (line sum : Nat) : Bool :=
  if line = 1 then decide (sum * 10 ≤ 80000000 * 11) && decide (80000000 * 9 ≤ sum * 10)
  else if line = 2 then decide (sum * 30 ≤ 200000000 * 11) && decide (200000000 * 9 ≤ sum * 30)
  else decide (sum * 90 ≤ 8000000000) && decide (8000000000 ≤ sum * 130)

/-- 8 consistent half-cycles (R325). -/
def PhaseSt.consistent (x : PhaseSt) (line : Nat) : Bool :=
  let g := gapsOf (x.edges.take 9)
  decide (9 ≤ x.edges.length) && g.all (fun d => decide (d * 80 ≤ x.sum8 * 11) && decide (x.sum8 * 9 ≤ d * 80)) && lineOk line x.sum8

/-- FCFG.LINE. -/
def State.lineCfg (s : State) : Nat := fld (s.reg firing) 8 2

/-- The prediction shown in FHCx, in µs. -/
def State.showHalf (s : State) (p : Fin 3) : State :=
  s.setReg (firing + 0x018 + 4 * p.val) (w32 (min 65535 ((s.ph p).half / 1000)))

/-- A phase runs from here: it has 8 consistent half-cycles; its frames are counted anew (R325, R328). -/
def State.phStart (s : State) (p : Fin 3) (x : PhaseSt) : State :=
  let s1 := (s.setPh p { x with run := true, lost := false, frame := 0, stage := 0 }).mapOuts (fun o q =>
    if s.oPhase o = p.val then { q with cnt := 0 } else q)
  let s2 := if s.lineCfg = 0 then
      s1.modReg (firing + 0x00C) (fun w => putF w 4 2 (if 8000000000 < x.sum8 * 110 then 1 else 2)) else s1
  s2.showHalf p

/-- ZERO_CROSSING (R325): an edge of ZCA, ZCB or ZCC now. -/
def execZeroCrossing (p : Fin 3) (s : State) : Out :=
  let x := s.ph p
  if x.run then
    let pred := x.edges.headD 0 + x.half
    if (max s.dnow pred - min s.dnow pred) * 10 ≤ x.half then
      .next ((s.setPh p { x with edges := s.dnow :: x.edges.take 8 }).showHalf p)
    else .next s
  else
    let y : PhaseSt := { x with edges := s.dnow :: x.edges.take 8 }
    if y.consistent s.lineCfg then .next (s.phStart p y) else .next (s.setPh p y)

/-- LEAD, PDLY and PW of FZC in ns (R326). -/
def State.lead (s : State) : Nat := fld (s.reg (firing + 4)) 0 8 * 10000
def State.pdly (s : State) : Nat := fld (s.reg (firing + 4)) 16 8 * 10000
def State.pulse (s : State) : Nat := fld (s.reg (firing + 4)) 8 8 * 10000

/-- PHASE_LOST (R325): no edge was accepted within 1.25 predicted half-cycles. The level pads are released at the next predicted
crossing less LEAD, which is the second after the last edge. -/
def execPhaseLost (p : Fin 3) (s : State) : Out :=
  let x := s.ph p
  if x.run && decide (x.edges.headD 0 * 32 + x.sum8 * 5 ≤ s.dnow * 32) then
    .next ((s.setPh p { x with
      run := false, lost := true, rel := some (x.edges.headD 0 + 2 * x.half - s.lead), edges := [], stage := if x.stage = 1 then 0 else x.stage }).fireEvent 0)
  else .next s

/-! ## The decision (R327, R328) -/

/-- The half-cycle outputs of a phase. -/
def State.phOuts (s : State) (p : Fin 3) : List (Fin 96) :=
  allOuts.filter (fun o => s.oPhase o == p.val && (s.oMode o == 1 || s.oMode o == 2))

/-- allowed(o) at instant `t` for an on-time of `th` ns, the limits in force under R313; `on` is pad on. -/
def State.allowed (s : State) (o : Fin 96) (th t : Nat) (on : Bool) : Bool :=
  (match s.duty o with
    | some d => decide (s.on1sAt o t + th ≤ d)
    | none => true)
  && (match s.maxon o with
    | some m => decide (s.conAt o t + th ≤ m)
    | none => true)
  && (on || decide (s.minoff o ≤ s.offAt o t))

/-- Insertion in an order. -/
def insertBy (lt : Fin 96 → Fin 96 → Bool) (o : Fin 96) : List (Fin 96) → List (Fin 96)
  | [] => [o]
  | q :: r => if lt o q then o :: q :: r else q :: insertBy lt o r

def sortBy (lt : Fin 96 → Fin 96 → Bool) (l : List (Fin 96)) : List (Fin 96) := l.foldl (fun r o => insertBy lt o r) []

/-- The order of the first pass: e descending, then prev = 1 first, then o ascending. -/
def State.before1 (s : State) (a b : Fin 96) : Bool :=
  let x := s.outp a
  let y := s.outp b
  if x.e ≠ y.e then decide (y.e < x.e) else if x.prev != y.prev then x.prev else decide (a.val < b.val)

/-- The order of the second pass: e descending, then o ascending. -/
def State.before2 (s : State) (a b : Fin 96) : Bool :=
  let x := s.outp a
  let y := s.outp b
  if x.e ≠ y.e then decide (y.e < x.e) else decide (a.val < b.val)

/-- Whether output `o` fits under ILIM with the load so far. -/
def State.fits (s : State) (p : Fin 3) (load : Nat) (o : Fin 96) : Bool :=
  s.ilim p == 0xFFFF || decide (load + s.inom o ≤ s.ilim p)

/-- An output fires in the half-cycle being decided. -/
def State.setFire (s : State) (o : Fin 96) : State := s.modOutp o (fun x => { x with fire := true })

/-- One output of the first pass. -/
def State.pass1 (p : Fin 3) (th t : Nat) (r : State × Nat) (o : Fin 96) : State × Nat :=
  let s := r.1
  if (s.outp o).e < 65535 then r
  else
    let a := s.allowed o th t ((s.outp o).onAt' t)
    if a && s.fits p r.2 o then (s.setFire o, r.2 + s.inom o)
    else
      let s1 := s.fireEvent 1
      (if a then s1 else s1.fireEvent 3, r.2)

/-- One output of the second pass: it fires a little early if it was on. -/
def State.pass2 (p : Fin 3) (th t w : Nat) (r : State × Nat) (o : Fin 96) : State × Nat :=
  let s := r.1
  let x := s.outp o
  if x.prev && !x.fire && decide ((65535 : Int) - w ≤ x.e) && s.allowed o th t (x.onAt' t) && s.fits p r.2 o then
    (s.setFire o, r.2 + s.inom o)
  else r

/-- The end of a frame (R328). -/
def State.frameEnd (s : State) (p : Fin 3) : State :=
  (s.phOuts p).foldl (fun (s : State) o =>
    let x := s.outp o
    let s1 := s.setOutp o { x with dlv := x.cnt, cnt := 0, e := min x.e 65534 }
    if 65534 < x.e then (s1.count (firing + 0x028)).fireEvent 2 else s1) s

/-- Every e grows by its live demand; what fired is now prev. -/
def State.grow (s : State) (os : List (Fin 96)) : State :=
  os.foldl (fun (s : State) o =>
    s.modOutp o (fun x =>
      let y := { x with prev := x.fire, fire := false }
      if x.quenched then y else { y with e := min (x.e + x.live.toNat) 131070 })) s

/-- The firing outputs pay for their half-cycle, and count in the frame. -/
def State.pay (s : State) (os : List (Fin 96)) (frame : Bool) : State :=
  os.foldl (fun (s : State) o =>
    s.modOutp o (fun x => if x.fire then { x with e := x.e - 65535, cnt := if frame then x.cnt + 1 else x.cnt } else x)) s

/-- When the half-cycle that begins at `zk` is decided: Zk - LEAD - 20 µs (R326). -/
def State.decideAt (s : State) (zk : Nat) : Nat := zk - s.lead - 20000

/-- HALF_CYCLE_DECISION (R326 to R328): at Zk - LEAD - 20 µs; a command before that instant is none. -/
def execHalfCycleDecision (p : Fin 3) (s : State) : Out :=
  let x := s.ph p
  let zk := x.edges.headD 0 + x.half
  let t := s.decideAt zk
  if !x.run || x.stage != 0 || s.dnow < t || zk ≤ x.zk then .next s
  else
    let f := fld (s.reg firing) 0 8
    let os := s.phOuts p
    let ovl := f ≠ 0 && decide (f ≤ x.frame)
    let s1 := ((if ovl then s.frameEnd p else s).grow os)
    let free := os.filter (fun o => !(s1.outp o).quenched)
    let r1 := (sortBy s1.before1 free).foldl (State.pass1 p x.half t) (s1, 0)
    let w := fld (s.reg (firing + 0x008)) 0 16
    let r2 := if w = 0 then r1 else (sortBy r1.1.before2 free).foldl (State.pass2 p x.half t w) r1
    .next ((r2.1.pay os (f != 0)).setPh p
      { x with stage := 1, zk := zk, frame := if f = 0 then 0 else if ovl then 1 else x.frame + 1 })

/-! ## The pads (R326) -/

/-- A pad that is on with no planned end. -/
def Outp.openEnded (x : Outp) : Bool :=
  match x.win with
  | some (_, none) => true
  | _ => false

/-- The level pads of a phase follow the decision from instant `t`; a quenched one stays off (R300), and one of an output that a
swap disabled turns off (log entry 35). -/
def State.levelPads (s : State) (p : Fin 3) (t : Nat) : State :=
  allOuts.foldl (fun (s : State) o =>
    let x := s.outp o
    if s.oPhase o = p.val && s.oMode o == 1 then
      (if x.fire && !x.quenched then (if x.openEnded then s else s.switch o t (some none)) else s.switch o t none)
    else if s.oMode o == 0 && x.openEnded then s.switch o t none
    else s) s.settle

/-- The pulse pads of a phase are on from `t` for PW x 10 µs, those cleared in this half-cycle excepted (R315). -/
def State.pulseOn (s : State) (p : Fin 3) (t : Nat) : State :=
  allOuts.foldl (fun (s : State) o =>
    let x := s.outp o
    if s.oPhase o = p.val && s.oMode o == 2 && x.fire && !x.quenched && !(x.clr.any (fun c => decide ((s.ph p).zk ≤ c))) then
      s.switch o t (some (some (t + s.pulse)))
    else s) s.settle

/-- The pulses of a phase are over. -/
def State.pulseOff (s : State) (p : Fin 3) (t : Nat) : State :=
  allOuts.foldl (fun (s : State) o => if s.oPhase o = p.val && s.oMode o == 2 then s.switch o t none else s) s.settle

/-- A lost phase releases its level pads and fires nothing (R325). -/
def State.release (s : State) (p : Fin 3) (t : Nat) : State :=
  (s.mapOuts (fun o x => if s.oPhase o = p.val then { x with fire := false, prev := false } else x)).levelPads p t

/-- HALF_CYCLE_BOUNDARY (R326): the next timed point of the half-cycle decided: Zk - LEAD, Zk + PDLY, the end of the pulses, and after
a loss the release. The pads switch at that point; a command before it is none. -/
def execHalfCycleBoundary (p : Fin 3) (s : State) : Out :=
  let x := s.ph p
  let t1 := x.zk - s.lead
  let t2 := x.zk + s.pdly
  let t3 := t2 + s.pulse
  if x.stage = 1 && t1 ≤ s.dnow then
    let s1 := s.levelPads p t1
    .next (({ s1 with dm := { s1.dm with phAct := s1.dm.phAct &&& ~~~(BitVec.ofNat 3 (2 ^ p.val)) } } : State).setPh p
      { x with stage := 2 }).noteLoad
  else if x.stage = 2 && t2 ≤ s.dnow then .next ((s.pulseOn p t2).setPh p { x with stage := 3 }).noteLoad
  else if x.stage = 3 && t3 ≤ s.dnow then .next ((s.pulseOff p t3).setPh p { x with stage := 0 }).noteLoad
  else match x.rel with
    | some t => if x.stage = 0 && t ≤ s.dnow then .next ((s.release p t).setPh p { x with rel := none }).noteLoad else .next s
    | none => .next s

/-! ## PWM pairs (R329, R330) -/

/-- ON for a live demand. -/
def pwmCount (d per : Nat) : Nat := (d * per + 32767) / 65535

/-- An output's part of a period: on for counts [a, b), unless its limits forbid it; `on` is the enable before. -/
def State.pwmWin (s : State) (o : Fin 96) (a b : Nat) : Option (Nat × Nat) :=
  if a < b && s.oMode o == 3 && s.allowed o ((b - a) * 40) s.dnow (s.outp o).en.isSome then some (a, b) else none

/-- The enable of an output at the start of a period, with MINOFF `m` in force (R309). -/
def Outp.enable (x : Outp) (on : Bool) (t m : Nat) : Outp :=
  match on, x.en with
  | true, none => { x with en := some t, early := decide (t - x.enOff < m) }
  | false, some _ => { x with en := none, enOff := t }
  | _, _ => x

/-- The window of an output for the period that starts now; one in MODE 1 or 2 is no PWM output, and keeps its pad. -/
def State.pwmSet (s : State) (o : Fin 96) (on : Bool) (w : Option (Nat × Nat)) : State :=
  if s.oMode o = 1 || s.oMode o = 2 then s
  else s.modOutp o (fun x =>
    let y := (x.close s.dnow).enable on s.dnow (s.minoff o)
    match w with
    | some (a, b) => if y.quenched then y else { y with win := some (s.dnow + 40 * a, some (s.dnow + 40 * b)) }
    | none => y)

/-- PWM_PERIOD (R329): pair `k` starts a period. -/
def execPwmPeriod (k : Fin 8) (s : State) : Out :=
  let c := s.reg (firing + 0x040 + 4 * k.val)
  let per := fld c 0 16
  let dt := fld c 16 8
  let e : Fin 96 := ⟨80 + 2 * k.val, by omega⟩
  let o : Fin 96 := ⟨81 + 2 * k.val, by omega⟩
  let s0 := s.settle
  if s.dm.bk || per = 0 then .next ((s0.pwmSet e false none).pwmSet o false none)
  else
    let de := (s.outp e).live.toNat
    let we := s0.pwmWin e 0 (pwmCount de per)
    let on := match we with
      | some (_, b) => b
      | none => 0
    if tb c 24 then
      let wo := s0.pwmWin o 0 (pwmCount (s.outp o).live.toNat per)
      let s1 := (s0.pwmSet e we.isSome we).pwmSet o wo.isSome wo
      let gov := (pwmCount de per != 0 && we.isNone) || (pwmCount (s.outp o).live.toNat per != 0 && wo.isNone)
      .next (if gov && s.oMode e == 3 then s1.fireEvent 3 else s1)
    else
      let wo := s0.pwmWin o (on + dt) (per - dt)
      let s1 := (s0.pwmSet e we.isSome we).pwmSet o we.isSome wo
      let gov := (pwmCount de per != 0 && we.isNone) || (decide (on + dt < per - dt) && wo.isNone)
      .next (if gov && s.oMode e == 3 then s1.fireEvent 3 else s1)

/-! ## Current transformers (R331) -/

/-- The integer square root, by bits from `n` down. -/
def isqrt (x : Nat) : Nat → Nat → Nat
  | 0, r => r
  | n + 1, r => if (r + 2 ^ n) * (r + 2 ^ n) ≤ x then isqrt x n (r + 2 ^ n) else isqrt x n r

/-- The expected current of the half-cycle that ended: INOM over the outputs of `j` that fired in it. -/
def State.ctExpected (s : State) (j : Fin 12) : Nat :=
  allOuts.foldl (fun n o =>
    if s.oCt o = j.val && (s.oMode o == 1 || s.oMode o == 2) then
      (let x := s.outp o
       let last := if s.oPhase o < 3 && (s.ph (fin 3 (s.oPhase o))).stage ≠ 0 then x.prev else x.fire
       if last then n + s.inom o else n)
    else n) 0

/-- min INOM of the outputs on `j`. -/
def State.ctMin (s : State) (j : Fin 12) : Nat :=
  match (allOuts.filter (fun o => s.oCt o == j.val)).map s.inom with
  | [] => 0
  | a :: r => r.foldl min a

/-- The square of Im as a fraction, in (0.1 A)^2: free where no sample came (log entry 2). -/
def State.ctIm2 (s : State) (j : Fin 12) : Nat × Nat :=
  let x := s.dm.ct[j]
  if x.n = 0 then ((fld (Config.freeWord s.free) 0 16) ^ 2, 1) else (s.ctfs j ^ 2 * x.sq, x.n * 2 ^ 30)

/-- Im as FCTj shows it: the spec does not say how it is rounded to 0.1 A (log entry 2). -/
def State.ctShow (s : State) (j : Fin 12) : Nat :=
  let q := s.ctIm2 j
  let r := isqrt (q.1 / q.2) 17 0
  min 65535 (if r * r * q.2 = q.1 then r else r + Config.freeNat s.free % 2)

/-- Half-cycles in a row that a condition has held, at most 15. -/
def rowCount (n : Nat) (b : Bool) : Nat := if b then min 15 (n + 1) else 0

/-- CT_HALF_CYCLE (R331). -/
def execCtHalfCycle (j : Fin 12) (s : State) : Out :=
  if s.ctfs j = 0 then .next s
  else
    let x := s.dm.ct[j]
    let ie := s.ctExpected j
    let q := s.ctIm2 j
    let part := decide (0 < ie) && decide (q.1 * 10000 < (ie * (100 - s.cttol)) ^ 2 * q.2)
    let stuck := ie == 0 && decide ((s.ctMin j * s.cttol) ^ 2 * q.2 < q.1 * 10000)
    let ovl := decide (0 < ie) && decide ((ie * (100 + s.cttol)) ^ 2 * q.2 < q.1 * 10000)
    let n := s.ctn
    let y : CtSt := { n := 0, sq := 0, part := rowCount x.part part, stuck := rowCount x.stuck stuck, ovl := rowCount x.ovl ovl
                      absent := rowCount x.absent (!stuck && !ovl), act := x.act }
    let fp := decide (n ≤ y.part)
    let fs := decide (n ≤ y.stuck)
    let fo := decide (n ≤ y.ovl)
    let act := if (fs || fo) && s.cttrip then true else if n ≤ y.absent then false else y.act
    let s1 := { s with dm := { s.dm with ct := s.dm.ct.set j { y with act := act } }, free := s.free + 1 }.setReg
      (firing + 0x080 + 4 * j.val) (w32 (s.ctShow j + min 65535 ie * 2 ^ 16))
    let s2 := if fp then (s1.modReg (firing + 0x060) (fun w => setBit w j.val true)).fireEvent 5 else s1
    let s3 := if fs then (s2.modReg (firing + 0x060) (fun w => setBit w (16 + j.val) true)).fireEvent 6 else s2
    let s4 := if fo then (s3.modReg (firing + 0x064) (fun w => setBit w j.val true)).fireEvent 7 else s3
    .next (if (fs || fo) && s.cttrip then s4.latch 5 (some j.val) (fun o => s.ctGroups j (s.oGroup o)) else s4)

/-! ## The FIRING registers (R320, R333, Table DF-7) -/

/-- FIRSTAT as it reads. -/
def State.firstat (s : State) : Word :=
  (s.reg (firing + 0x00C) &&& 0x30) ||| bitAt (s.ph 0).lost 0 ||| bitAt (s.ph 1).lost 1 ||| bitAt (s.ph 2).lost 2 ||| bitAt s.dm.bk 3

/-- A read of the FIRING block at offset `o`. -/
def State.firingRead (s : State) (_w : Who) (o : Nat) : BusR :=
  if o = 0xC then .ok (s.firstat, s)
  else if within 0x100 o 0x27F then .ok (w32 (s.outp (fin 96 ((o - 0x100) / 4))).draft.toNat, s)
  else if within 0x300 o 0x47F then .ok (w32 (s.outp (fin 96 ((o - 0x300) / 4))).live.toNat, s)
  else if within 0x500 o 0x67F then .ok (wOfInt (s.outp (fin 96 ((o - 0x500) / 4))).e, s)
  else if within 0x700 o 0x87F then .ok (w32 ((s.outp (fin 96 ((o - 0x700) / 4))).dlv % 256), s)
  else .ok (s.reg (firing + o), s.clearRc (firing + o))

/-- FDEMo (R320): from hearth OWNER(o) through its stack port, before its on-time COMMIT. -/
def State.fdemWrite (s : State) (w : Who) (o : Fin 96) (v : Word) : BusW :=
  if w.hearth ≠ some (s.oOwner o) || w.master.val ≠ 1 + (s.oOwner o).val / 8 then .error 2
  else if s.ep.ecmt.getLsbD (s.oOwner o).val then .error 5
  else .ok (s.modOutp o (fun x => { x with draft := BitVec.ofNat 16 (fld v 0 16) }))

/-- A refused demand write is recorded (R320). -/
def State.fdeny (s : State) (w : Who) (o : Nat) : State :=
  (s.setReg (firing + 0x024) (w32 (o + (match w.hearth with
    | some h => h.val
    | none => 0x3F) * 2 ^ 8) ||| bitAt true 31)).fireEvent 4

/-- Reserved encodings keep the old field (R12). -/
def State.firingLegal (s : State) (o : Nat) (v : Word) : Word :=
  let old := s.reg (firing + o)
  if o = 0 then
    (let v1 := if within 10 (fld v 0 8) 200 then v else putF v 0 8 (fld old 0 8)
     if fld v1 8 2 = 3 then putF v1 8 2 (fld old 8 2) else v1)
  else if o = 4 && fld v 8 8 == 0 then putF v 8 8 (fld old 8 8)
  else if within 0x40 o 0x5F && decide (fld v 0 16 < 250) then putF v 0 16 (fld old 0 16)
  else v

/-- A write to the FIRING block at offset `o` (R333). -/
def State.firingWrite (s : State) (w : Who) (o : Nat) (v : Word) : BusW :=
  let lk := tb (s.reg firing) 31
  if within 0x100 o 0x27F then s.fdemWrite w (fin 96 ((o - 0x100) / 4)) v
  else if (gsHearth w).isSome || (w.master == 0 && o != 0x10 && o != 0x60 && o != 0x64) then
    .ok (s.putReg (firing + o) (s.firingLegal o v) lk)
  else .error 2

end Sys2Proof.Machine
end

