-- ==== Sys2Proof/Machine/Kernels.lean ====
section
/-!
DEFINITION. The kernels FK0, FK1, FK2 (08 R218 to R233), FK4 and FK5 (09 R250 to R266) over a hearth's felt bank, as
exact functions of the bank, the tables and the registers they read.
-/
namespace Sys2Proof.Machine
open Sys2Proof

/-! ## The cell record (08 Table FE-1) -/

def State.felt16 (s : State) (h : Hid) (o : Nat) : Nat := s.rd16 (feltKey h o)
def State.felt8 (s : State) (h : Hid) (o : Nat) : Nat := (s.byte (feltKey h o)).toNat
def State.felt32 (s : State) (h : Hid) (o : Nat) : Word := s.rd32 (feltKey h o)

/-- Eight 16-bit codes from bank offset `o`, in member order. -/
def State.codes (s : State) (h : Hid) (o : Nat) : List Nat := (List.range 8).map (fun m => s.felt16 h (o + 2 * m))

def State.cellT (s : State) (h : Hid) (c : Nat) : List Nat := s.codes h (64 * c)
def State.cellX (s : State) (h : Hid) (c : Nat) : List Nat := s.codes h (64 * c + 0x10)
def State.cellNb (s : State) (h : Hid) (c f : Nat) : Nat := s.felt16 h (64 * c + 0x20 + 2 * f)
def State.cellMat (s : State) (h : Hid) (c : Nat) : Nat := s.felt8 h (64 * c + 0x2C)
def State.cellFlg (s : State) (h : Hid) (c : Nat) : Nat := s.felt8 h (64 * c + 0x2D)
def State.cellSrc (s : State) (h : Hid) (c : Nat) : Nat := s.felt16 h (64 * c + 0x2E)
def State.cellCinv (s : State) (h : Hid) (c : Nat) : Nat := s.felt16 h (64 * c + 0x30)
def State.cellG (s : State) (h : Hid) (c f : Nat) : Nat := s.felt16 h (64 * c + 0x32 + 2 * f)
def State.cellSpare (s : State) (h : Hid) (c : Nat) : Nat := s.felt16 h (64 * c + 0x3E)

/-- Bit `i` of a flag byte. -/
def flag (g i : Nat) : Bool := g / 2 ^ i % 2 == 1

/-- A cell that is not frozen is bad in the cases of R222. -/
def State.cellBad (s : State) (h : Hid) (c : Nat) : Bool :=
  let g := s.cellFlg h c
  !flag g 3 &&
    (g / 32 != 0 || decide (16 ≤ s.cellMat h c) || s.cellSpare h c != 0
      || (List.range 6).any (fun f =>
          let n := s.cellNb h c f % 8192
          let k := s.cellNb h c f / 8192
          within 6144 n 8190 || (decide (3 ≤ k) && n != 8191))
      || (flag g 2 && decide (2048 ≤ s.cellSrc h c)) || (flag g 0 && !flag g 2))

/-- Source-table entry `i` (Table FE-4). -/
def State.source (s : State) (h : Hid) (i : Nat) : Word := s.felt32 h (0x4A000 + 4 * i)

/-! ## The material record (08 Table FE-5) -/

/-- The 16 records of the selected material table as a run latches them (R223, R228): their bytes not 0, by offset. -/
def State.matLatch (s : State) (h : Hid) : List Host.Cell :=
  let lo := feltKey h (if s.mtab then 0x49000 else 0x48000)
  (s.mem.filter (fun c => decide (lo ≤ c.1) && decide (c.1 < lo + 0x1000))).map (fun c => (c.1 - lo, c.2))

def mat8 (m : List Host.Cell) (o : Nat) : Nat := (smGet (fun _ => (0 : Byte)) m o).toNat
def mat16 (m : List Host.Cell) (o : Nat) : Nat := mat8 m o + 256 * mat8 m (o + 1)

/-- Table point Y[k] of the material record at offset `o`. -/
def matY (m : List Host.Cell) (o k : Nat) : Int := sgn 16 (mat16 m (o + 0x80 + 2 * k))

/-- pwl(M, a) of R229. -/
def matPwl (m : List Host.Cell) (o a : Nat) : Int :=
  let tbase := mat16 m (o + 8)
  let sp := 2 ^ (mat8 m (o + 0xA) % 16)
  if a < tbase then matY m o 0
  else
    let k := (a - tbase) / sp
    if 63 ≤ k then matY m o 63
    else
      let fr := (a - tbase) - k * sp
      matY m o k + (matY m o (k + 1) - matY m o k) * fr / sp

/-! ## The noise lanes (08 R232) -/

/-- step(m): the xorshift of a lane. -/
def laneStep (x : Word) : Word :=
  let x := x ^^^ (x <<< 13)
  let x := x ^^^ (x >>> 17)
  x ^^^ (x <<< 5)

/-- The lanes of a hearth, FNS0 to FNS7. -/
def Hearth.fns (h : Hearth) : List Word := (List.range 8).map (fun m => h.rd (0x420 + 4 * m))

def Hearth.setFns (h : Hearth) (l : List Word) : Hearth :=
  (List.range 8).foldl (fun h m => h.wr (0x420 + 4 * m) (l.getD m 1)) h

/-! ## One member of one cell (08 R229) -/

/-- The flux through face `f` of a cell at member `m`, own code `a`. -/
def State.faceFlux (s : State) (h : Hid) (mt : List Host.Cell) (c mo m f : Nat) (a : Int) : Int :=
  let nb := s.cellNb h c f
  let n := nb % 8192
  let k := nb / 8192
  if n = 8191 then 0
  else
    let b : Int := if n < 4096 then s.felt16 h (64 * n + 2 * m) else s.felt16 h (0x40000 + 16 * (n - 4096) + 2 * m)
    let g : Int := s.cellG h c f
    if k = 0 then g * (b - a)
    else if k = 1 then floorShr (g * mat16 mt mo + 2 ^ 11) 12 * (b - a)
    else if k = 2 then floorShr (g * (b - a) * floorShr ((b * b + a * a) * (b + a)) 34) 16
    else 0

/-- A clamped code, and 1 if it was clamped (R230). -/
def clampCode (x : Int) : Nat × Nat :=
  ((clampI x 0 65535).toNat, if x < 0 || 65535 < x then 1 else 0)

/-- Member `m` of an ordinary cell under the latched records `mt`: the new T and X codes and the number of clamps. -/
def State.member (s : State) (h : Hid) (mt : List Host.Cell) (kern c : Nat) (rn rd : Word) (m : Nat) : Nat × Nat × Nat :=
  let mo := 256 * s.cellMat h c
  let a := s.felt16 h (64 * c + 2 * m)
  let x := s.felt16 h (64 * c + 0x10 + 2 * m)
  let f0 : Int := (List.range 6).foldl (fun r f => r + s.faceFlux h mt c mo m f a) 0
  let g := s.cellFlg h c
  let fl : Int := if 1 ≤ kern && flag g 2 then f0 + (s.source h (s.cellSrc h c)).toInt else f0
  let d0 : Int := floorShr (s.cellCinv h c * fl + 2 ^ 27) 28
  let d1 : Int := if 1 ≤ kern then
      d0 + floorShr ((sgn 16 (fld rn 0 16) + sgn 16 (fld rn 16 16)) * mat16 mt (mo + 2) + 2 ^ 15) 16 else d0
  let xn : Nat × Nat := if kern = 2 && flag g 4 then
      clampCode ((x : Int) + floorShr (matPwl mt mo a * mat16 mt (mo + 4) + fld rd 0 16) 16) else (x, 0)
  let d2 : Int := if kern = 2 && flag g 4 then
      d1 - floorShr (((xn.1 : Int) - x) * sgn 16 (mat16 mt (mo + 6)) + 2 ^ 11) 12 else d1
  let tn := clampCode ((a : Int) + d2)
  (tn.1, xn.1, tn.2 + xn.2)

/-! ## A run: the write-back delayed by 256 items (08 R233) -/

/-- A run under way: the machine, the write-backs not yet made (item, slot, T, X), and what it has met. -/
structure Run where
  s     : State
  q     : List (Nat × Nat × List Nat × List Nat)
  bad   : Bool
  clamp : Bool
  band  : Bool
deriving DecidableEq, Repr

def State.setCodes (s : State) (h : Hid) (o : Nat) (l : List Nat) : State :=
  s.setBytes (feltKey h o) (l.flatMap (fun v => leBytes 2 v))

/-- The new T and X of a cell are written to the bank. -/
def State.writeCell (s : State) (h : Hid) (w : Nat × Nat × List Nat × List Nat) : State :=
  (s.setCodes h (64 * w.2.1) w.2.2.1).setCodes h (64 * w.2.1 + 0x10) w.2.2.2

/-- After item `j` is processed, the write-backs of items up to j - 256 are made. -/
def Run.settle (r : Run) (h : Hid) (j : Nat) : Run :=
  { r with
    s := (r.q.filter (fun w => decide (w.1 + 256 ≤ j))).foldl (fun s w => s.writeCell h w) r.s
    q := r.q.filter (fun w => !decide (w.1 + 256 ≤ j)) }

/-- The new T and X of a cell are written on port A in the current cycle (R246). -/
def State.writeCellA (s : State) (h : Hid) (w : Nat × Nat × List Nat × List Nat) : State :=
  s.portAs h (64 * w.2.1) (wordsOf ((w.2.2.1 ++ w.2.2.2).flatMap (fun c => leBytes 2 c)))

/-- The end of a run over `count` items that stops after `cyc` cycles of it: before its last item the write-backs not made are
discarded; after it the flush writes 4 slots in each cycle, the last of them in the current one (R233, R246, R248). -/
def Run.stop (r : Run) (h : Hid) (count cyc : Nat) : Run :=
  let lo := count - min count 256
  let past := fun (w : Nat × Nat × List Nat × List Nat) => decide (w.1 < lo + 4 * (cyc - count))
  let last := fun (w : Nat × Nat × List Nat × List Nat) => decide (lo + 4 * ((min count 256 - 1) / 4) ≤ w.1)
  { r with
    q := []
    s := if cyc < count then r.s
      else ((r.q.filter past).filter last).foldl (fun s w => s.writeCellA h w)
        (((r.q.filter past).filter (fun w => !last w)).foldl (fun s w => s.writeCell h w) r.s) }

/-- A run of `count` items, `f` being one item, stopped after `cyc` cycles. -/
def State.runOf (s : State) (h : Hid) (count cyc : Nat) (f : Run → Nat → Run) : Run :=
  ((List.range (min count cyc)).foldl f ⟨s, [], false, false, false⟩).stop h count cyc

/-- A bad cell is counted; the first one is recorded (R222). -/
def State.countBad (s : State) (h : Hid) (i : Nat) (push : Bool) : State :=
  s.modHearth h (fun x =>
    let y := (x.wr 0x40C (setBit (x.rd 0x40C) 8 true)).count 0x414
    if tb (y.rd 0x410) 31 then y else y.wr 0x410 (w32 (i % 4096) ||| bitAt push 12 ||| bitAt true 31))

/-- A bad map or list entry is counted, and FBADS is left alone (09 R254). -/
def State.countMap (s : State) (h : Hid) : State :=
  s.modHearth h (fun x =>
    ((x.wr 0x40C (setBit (x.rd 0x40C) 8 true)).count 0x414).wr 0x4C0 (setBit (x.rd 0x4C0) 0 true))

/-- `n` members were clamped (R230). -/
def State.countClamp (s : State) (h : Hid) (n : Nat) : State :=
  if n = 0 then s
  else s.modHearth h (fun x =>
    (x.wr 0x40C (setBit (x.rd 0x40C) 9 true)).wr 0x418 (w32 (min ((x.rd 0x418).toNat + n) 4294967295)))

def State.setBand (s : State) (h : Hid) : State := s.modHearth h (fun x => x.wr 0x40C (setBit (x.rd 0x40C) 10 true))

/-- A link to a slot of this run whose write-back has already been made (R233). -/
def State.bandLink (s : State) (h : Hid) (c first : Nat) : Bool :=
  (List.range 6).any (fun f =>
    let n := s.cellNb h c f % 8192
    decide (n < 4096) && decide (n + 256 < c) && decide (first ≤ n))

/-- The noise a slot draws: rn and rd per member, and the lanes after (R229, R232). -/
def Hearth.draw (h : Hearth) (kern : Nat) : List Word × List Word × Hearth :=
  if kern = 0 then ([], [], h)
  else
    let rn := h.fns.map laneStep
    if kern = 1 then (rn, [], h.setFns rn)
    else
      let rd := rn.map laneStep
      (rn, rd, h.setFns rd)

/-- One slot of FK0, FK1 or FK2 (R229). `i` is the item number in the run. -/
def Run.slot (r : Run) (h : Hid) (mt : List Host.Cell) (kern first i : Nat) : Run :=
  let c := first + i
  let dr := (r.s.hearth h).draw kern
  let s := r.s.setHearth h dr.2.2
  let g := s.cellFlg h c
  let r1 : Run :=
    if flag g 3 then { r with s := s }
    else if s.cellBad h c then { r with s := s.countBad h c false, bad := true }
    else if flag g 0 then
      let tn := if 1 ≤ kern then List.replicate 8 (fld (s.source h (s.cellSrc h c)) 0 16) else s.cellT h c
      { r with s := s, q := r.q ++ [(i, c, tn, s.cellX h c)] }
    else
      let ms := (List.range 8).map (fun m => s.member h mt kern c (dr.1.getD m 0) (dr.2.1.getD m 0) m)
      let n := ms.foldl (fun n x => n + x.2.2) 0
      let bl := s.bandLink h c first
      let s1 := s.countClamp h n
      { r with
        s := if bl then s1.setBand h else s1
        q := r.q ++ [(i, c, ms.map (fun x => x.1), ms.map (fun x => x.2.1))]
        clamp := r.clamp || n != 0
        band := r.band || bl }
  r1.settle h i

/-- The first `cyc` cycles of a run of FK0, FK1 or FK2 over a slot range (R228, R233). -/
def State.runFk (s : State) (h : Hid) (mt : List Host.Cell) (kern first count cyc : Nat) : Run :=
  s.runOf h count cyc (fun r i => r.slot h mt kern first i)

/-! ## FK4 (09 R253) -/

/-- Bank offset of lane `l` of the reduction area (09 Table AS-1). -/
def laneOff (l : Nat) : Nat := 0x4E400 + 8 * l

def State.laneAt (s : State) (h : Hid) (l : Nat) : Int := sgn 64 (leNat (s.bytes (feltKey h (laneOff l)) 8))

def State.setLane (s : State) (h : Hid) (l : Nat) (v : Int) : State :=
  s.setBytes (feltKey h (laneOff l)) (leBytes 8 (trunc 64 v))

/-- A sum saturated to 64 bits, and whether it clamped. -/
def sat64 (v : Int) : Int × Bool := sat v (-9223372036854775808) 9223372036854775807

/-- FK4 under way: the machine, the 512 lanes, the next map entry, and whether a bad cell or entry was met. -/
structure Stat where
  s   : State
  l   : List Int
  p   : Nat
  bad : Bool
deriving DecidableEq, Repr

/-- add64 of R253: a saturating addition; a clamp sets FASTAT.ROV. -/
def Stat.add (r : Stat) (h : Hid) (l : Nat) (v : Int) : Stat :=
  let x := sat64 (r.l.getD l 0 + v)
  { r with
    l := r.l.set l x.1
    s := if x.2 then r.s.modHearth h (fun y => y.wr 0x4C0 (setBit (y.rd 0x4C0) 3 true)) else r.s }

/-- Map entry `i`: its two words (Table AS-2). -/
def State.mapWord (s : State) (h : Hid) (i w : Nat) : Word := s.felt32 h (0x4E000 + 8 * i + 4 * w)

/-- A bad map entry (R251). -/
def State.mapBad (s : State) (h : Hid) (i : Nat) : Bool :=
  let w0 := s.mapWord h i 0
  let w1 := s.mapWord h i 1
  let c := fld w0 0 12
  fld w0 12 4 != 0 || fld w0 22 10 != 0 || fld w1 16 16 != 0 || decide (60 ≤ fld w0 16 6)
    || !flag (s.cellFlg h c) 1 || s.cellBad h c

/-- The map entries consumed at slot `c`, at most `n` of them (R253). -/
def Stat.entries (r : Stat) (h : Hid) (c q : Nat) : Nat → Stat
  | 0 => r
  | n + 1 =>
    if r.p < q && decide (fld (r.s.mapWord h r.p 0) 0 12 ≤ c) then
      let w0 := r.s.mapWord h r.p 0
      let w := fld (r.s.mapWord h r.p 1) 0 16
      let r1 : Stat := { r with p := r.p + 1 }
      let r2 : Stat :=
        if fld w0 0 12 < c || r.s.mapBad h r.p then { r1 with s := r1.s.countMap h, bad := true }
        else (List.range 8).foldl (fun r m =>
          r.add h (8 * fld w0 16 6 + m) ((w : Int) * r.s.felt16 h (64 * c + 2 * m))) r1
      r2.entries h c q n
    else r

/-- One slot of FK4. -/
def Stat.slot (r : Stat) (h : Hid) (c q : Nat) : Stat :=
  let r1 := r.entries h c q (q - r.p)
  let bad := r1.s.cellBad h c
  let r2 : Stat := if bad then { r1 with s := r1.s.countBad h c false, bad := true } else r1
  let g := r2.s.cellFlg h c
  if flag g 4 && !flag g 3 && !bad then
    let r3 := (List.range 8).foldl (fun r m =>
      (r.add h (480 + m) (r.s.felt16 h (64 * c + 2 * m))).add h (488 + m) (r.s.felt16 h (64 * c + 0x10 + 2 * m))) r2
    r3.add h 496 1
  else r2

/-- What FK4 does as it starts: the lanes it loads or zeroes, ZR cleared, and its map range (R253, R255). -/
def State.statStart (s : State) (h : Hid) : State × List Int × Nat × Nat :=
  let x := s.hearth h
  let am := x.rd 0x484
  let rg := (fld am 0 7, fld am 0 7 + fld am 16 8)
  if tb (x.rd 0x480) 0 then (s.setHearth h (x.wr 0x480 (setBit (x.rd 0x480) 0 false)), List.replicate 512 0, rg)
  else (s, (List.range 512).map (fun l => s.laneAt h l), rg)

/-- The first `cyc` slots of a run of FK4 from the lanes and the map range of its start: the machine with its counters, and the
lanes (R253). -/
def State.runStat (s : State) (h : Hid) (q : FulReq) (cyc : Nat) : Stat :=
  (List.range (min q.count cyc)).foldl (fun (r : Stat) i => r.slot h (q.first + i) q.map.2) ⟨s, q.lanes, q.map.1, false⟩

/-- The lanes are written back (R255). -/
def State.writeLanes (s : State) (h : Hid) (l : List Int) : State :=
  (List.range 512).foldl (fun s i => s.setLane h i (l.getD i 0)) s

/-! ## FK5 (09 R264 to R266) -/

/-- upd(Y) of R264: the new codes, the clamps, and whether the gain was clamped. -/
def upd (y : List Nat) (d v : List Int) (rho a : Nat) : List Nat × Nat × Bool :=
  let sum : Int := ((y.foldl (fun r n => r + n) 0 : Nat) : Int)
  let c : Int := (List.range 8).foldl (fun r m => r + (8 * (y.getD m 0 : Int) - sum) * d.getD m 0) 0
  let g0 := floorShr (c * rho * a + 2 ^ 38) 39
  let g := clampI g0 (-131072) 131072
  let ys := (List.range 8).map (fun m => clampCode ((y.getD m 0 : Int) + floorShr (g * v.getD m 0 + 2 ^ 15) 16))
  (ys.map (fun x => x.1), ys.foldl (fun n x => n + x.2) 0, decide (g0 < -131072) || decide (131072 < g0))

/-- The member values of FAD or FAV words: two lanes of 16 bits each (R264). -/
def pairLanes (l : List Word) : List Int := (List.range 8).map (fun m => slane (l.getD (m / 2) 0) (m % 2) 16)

/-- A gain clamp is counted (R264). -/
def State.countGain (s : State) (h : Hid) (b : Bool) : State :=
  if b then s.modHearth h (fun x => (x.wr 0x4C0 (setBit (x.rd 0x4C0) 1 true)).count 0x4C4) else s

/-- One item of FK5: cell `c` with weight `rho` (R264). -/
def Run.item (r : Run) (h : Hid) (q : FulReq) (i c rho : Nat) : Run :=
  let s := r.s
  let g := s.cellFlg h c
  let bad := s.cellBad h c
  let r0 : Run := if bad then { r with s := s.countBad h c false, bad := true } else r
  let r1 : Run :=
    if flag g 3 || flag g 0 || bad || rho == 0 then r0
    else
      let d := pairLanes q.fad
      let v := pairLanes q.fav
      let t := upd (s.cellT h c) d v rho q.fags.toNat
      let x := if q.xu then upd (s.cellX h c) d v rho q.fags.toNat else (s.cellX h c, 0, false)
      { r0 with
        s := ((r0.s.countClamp h (t.2.1 + x.2.1)).countGain h t.2.2).countGain h x.2.2
        q := r0.q ++ [(i, c, t.1, x.1)]
        clamp := r0.clamp || t.2.1 + x.2.1 != 0 }
  r1.settle h i

/-- The age check of FK5 refuses a request (R264). -/
def Hearth.tooOld (h : Hearth) (q : FulReq) (enow : Nat) : Bool :=
  tb q.faoe 31 && decide (fld (h.rd 0x494) 0 8 < (enow + 2 ^ 24 - fld q.faoe 0 24) % 2 ^ 24)

/-- FK5 over a slot range, each with FAW.RHO (R265): its first `cyc` cycles. -/
def State.runUpd (s : State) (h : Hid) (q : FulReq) (cyc : Nat) : Run :=
  s.runOf h q.count cyc (fun r i => r.item h q i (q.first + i) (fld q.faw 0 16))

/-- FK5 over entries of the localisation list (R266): its first `cyc` cycles. -/
def State.runList (s : State) (h : Hid) (q : FulReq) (cyc : Nat) : Run :=
  s.runOf h q.count cyc (fun r i =>
    let e := r.s.felt32 h (0x4F400 + 4 * (q.first + i))
    if fld e 12 4 != 0 then ({ r with s := r.s.countMap h, bad := true } : Run).settle h i
    else r.item h q i (fld e 0 12) (fld e 16 16))

end Sys2Proof.Machine
end

