-- ==== Sys2Proof/Machine/Fulling.lean ====
section
/-!
DEFINITION. The fulling unit: requests and their status (08 R235 to R237, R248), halo pushes (R238, R239), steps
(R240), the barriers of both channels (R241 to R244), and reductions (09 R257 to R261).
-/
namespace Sys2Proof.Machine
open Sys2Proof

/-! ## Requests -/

/-- A request as its trigger makes it; FK5 takes its copies here (09 R263). -/
def Hearth.fulReq (h : Hearth) (id : Nat) (k : FulKind) (nr : Bool) (first count scope : Nat) : FulReq :=
  { id := id, kind := k, nr := nr, first := first, count := count, scope := scope
    fad := (List.range 4).map (fun i => h.rd (0x4A0 + 4 * i)), fav := (List.range 4).map (fun i => h.rd (0x4B0 + 4 * i))
    fags := h.rd 0x488, faw := h.rd 0x48C, faoe := h.rd 0x490, xu := tb (h.rd 0x480) 1
    phase := 0, mat := [], map := (0, 0), num := 0, next := 0, lanes := [], halo := 0, remote := 0, lost := false, status := 0
    bad := false, clamp := false, band := false, started := false, done := false }

/-- FUL.o. -/
def Hearth.fulO (h : Hearth) : Word := h.opnd 0x33

/-- A request that does nothing and completes with BADREQ (R235; 09 R253, R257, R266). -/
def Hearth.badReq (h : Hearth) (q : FulReq) : Bool :=
  match q.kind with
  | .run k => decide (5 < k) || decide ((if k = 3 then 1024 else 4096) < q.first + q.count)
      || (k == 4 && decide (128 < fld (h.rd 0x484) 0 7 + fld (h.rd 0x484) 16 8))
  | .step k => decide (2 < k) || decide (4096 < fld (h.rd 0x400) 0 12 + fld (h.rd 0x400) 16 13) || decide (1024 < fld (h.rd 0x404) 0 11)
  | .red => decide (1 < q.scope) || decide (512 < q.first + q.count)
  | .lrun => decide (768 < q.first + q.count)

/-- A reduction request that takes a place in the matching (09 R257). -/
def Hearth.redCounts (h : Hearth) (q : FulReq) : Bool :=
  q.kind == .red && !h.badReq q && q.count != 0 && tb (h.rd 0x498) 0

/-- The first request of the queue changed by `f`. -/
def Hearth.modFront (h : Hearth) (f : FulReq → FulReq) : Hearth :=
  match h.ful with
  | [] => h
  | q :: r => { h with ful := f q :: r }

/-- The worse of two outcomes: LINKFAIL, TIMEOUT, REFUSED, OK (R237). -/
def worse (a b : Byte) : Byte :=
  if a = 4 || b = 4 then 4 else if a = 3 || b = 3 then 3 else if a = 5 || b = 5 then 5 else 0

/-- FSTAT bit set. -/
def Hearth.fstatBit (h : Hearth) (b : Nat) : Hearth := h.wr 0x40C (setBit (h.rd 0x40C) b true)

def Hearth.fastatBit (h : Hearth) (b : Nat) : Hearth := h.wr 0x4C0 (setBit (h.rd 0x4C0) b true)

/-! ## Halo pushes -/

/-- The two words of push entry `e` (Table FE-6). -/
def State.pushWord (s : State) (h : Hid) (e w : Nat) : Word := s.felt32 h (0x4C000 + 8 * e + 4 * w)

def pushBad (w0 w1 : Word) : Bool := fld w0 12 4 != 0 || fld w0 27 5 != 0 || fld w1 6 2 != 0 || fld w1 22 10 != 0

/-- A bad push entry is skipped and counted (R227). -/
def State.pushSkip (s : State) (h : Hid) (e : Nat) : State :=
  (s.countBad h e true).modHearth h (fun x => x.modFront (fun q => { q with bad := true }))

/-- A hearth that does not run counts as arrived (R242). -/
def Hearth.runs (h : Hearth) : Bool := h.run == .running

/-- The hearth whose FSUB gives the device's current substep: the first that runs and takes part in steps (log entry 13). -/
def State.subHearth (s : State) : Hid := (allHearths.find? (fun h => (s.hearth h).runs && tb ((s.hearth h).rd 0x460) 8)).getD 0

/-- The tag of the device's current substep: the epoch number and the substep count (R243). -/
def State.subTag (s : State) : Nat × Nat := (s.epochOf s.subHearth % 256, fld ((s.hearth s.subHearth).rd 0x41C) 0 8)

/-- A HALO frame (12 Table YL-5): the tag's low halves, the slot, the hearth, and eight codes. -/
def State.haloFrame (s : State) (h : Hid) (w0 w1 : Word) (tag : Nat) (codes : List Nat) : Frame :=
  s.frame 0x09 (s.hearth h).mode (BitVec.ofNat 14 (fld w1 8 14)) tag h.val s.subTag.2
    (w32 (fld w0 16 11 + fld w1 0 6 * 2 ^ 11 + s.subTag.1 * 2 ^ 24)) (wordsOf (codes.flatMap (fun c => leBytes 2 c)))

/-- An item of the first request ended: with an outcome other than OK its status and FSTAT say so (R237, R244). -/
def Hearth.itemEnd (h : Hearth) (st : Byte) : Hearth :=
  let h1 := h.modFront (fun q => { q with status := worse q.status st })
  if st = 4 then h1.fstatBit 12 else if st = 3 then h1.fstatBit 11 else h1

/-- A token in a list for barrier `bar` from a node: of the tag of a step's barrier, of the count of a barrier of SYNC
(R241, R243; log entry 13). -/
def tokIn (l : List StepTok) (bar : Nat) (tag : Nat × Nat) (n : BitVec 14) : Bool :=
  l.any (fun t => t.node == n && t.bar == bar && (bar == 0 || t.epoch == tag.1) && t.count == tag.2)

def State.hasTok (s : State) (bar : Nat) (tag : Nat × Nat) (n : BitVec 14) : Bool := tokIn s.felt.toks bar tag n

/-- The nodes listed in FRN0 to FRN3 of all hearths, in order (R243). -/
def State.frnList (s : State) : List (Hid × BitVec 14) :=
  allHearths.flatMap (fun h => (List.range 4).filterMap (fun i =>
    let w := (s.hearth h).rd (0x448 + 4 * i)
    if tb w 31 then some (h, BitVec.ofNat 14 (fld w 0 14)) else none))

/-- The neighbour set: at most 8 distinct nodes (R243). -/
def State.neighbours (s : State) : List (BitVec 14) :=
  (s.frnList.foldl (fun (l : List (BitVec 14)) p => if l.contains p.2 then l else l ++ [p.2]) []).take 8

/-- The point of a hearth's stack (PWOPS). -/
def State.opAt (s : State) (h : Hid) : Nat := fld (s.reg 0x40010008) (4 * (stackOf h).val) 3

/-- The cycle of the destination's bank in which the entry that a push issues in its cycle `i` is ready for it: 8 cycles of push
start, then 2 by the stack halo bus, Lx by the halo switch (R239, R245, Table FE-10). -/
def State.haloDue (s : State) (src dst : Hid) (i : Nat) : Nat :=
  let op := s.opAt dst
  s.now * (min op 5 + 1) / 10 + 8 + i
    + (if stackOf src = stackOf dst then 2 else [8, 10, 12, 15, 17, 19].getD op 19)

/-- Entry `e`, the `i`-th to be issued, leaves on its path: a local one for its bank, a remote one by the link with a tag (R238,
R239), but not to a neighbour whose token is missing (R243). `none` while a remote one finds no tag. -/
def State.pushOne (s : State) (h : Hid) (q : FulReq) (e i : Nat) : Option State :=
  let w0 := s.pushWord h e 0
  let w1 := s.pushWord h e 1
  if pushBad w0 w1 then some (s.pushSkip h e)
  else
    let n := BitVec.ofNat 14 (fld w1 8 14)
    let codes := s.cellT h (fld w0 0 12)
    let d : Hid := fin 64 (fld w1 0 6)
    if s.isLocal n then
      let x : HaloItem := { src := h, req := q.id, dst := d, hslot := fld w0 16 11, data := codes, due := s.haloDue h d i }
      some ({ s with felt := { s.felt with items := s.felt.items ++ [x] } }.modHearth h
        (fun x => x.modFront (fun q => { q with halo := q.halo + 1 })))
    else if q.scope = 2 && q.phase = 2 && s.neighbours.contains n && !s.hasTok 1 s.subTag n then some s
    else
      match s.takeTag (.halo h q.id) with
      | none => none
      | some (t, s1) =>
        match s1.sendRouted none (s1.haloFrame h w0 w1 t codes) with
        | some s2 => some (s2.modHearth h (fun x => x.modFront (fun q => { q with remote := q.remote + 1 })))
        | none => some ((s1.unrouted.dropTag t).modHearth h (fun x => x.itemEnd 4))

/-- Entries leave in list order until one must wait for a tag (R239), at most `n` of them, the first being the `i`-th. -/
def State.pushMany (s : State) (h : Hid) (i : Nat) : Nat → State
  | 0 => s
  | n + 1 =>
    match (s.hearth h).ful with
    | [] => s
    | q :: _ =>
      match s.pushOne h q (q.first + q.next) i with
      | some s1 => (s1.modHearth h (fun x => x.modFront (fun q => { q with next := q.next + 1 }))).pushMany h (i + 1) n
      | none => s.waitTag (.halo h q.id)

/-! ## The course of a request -/

/-- What a run of FK0 to FK2, FK5 or LRUN met. -/
def Hearth.ran (h : Hearth) (bad clamp band : Bool) : Hearth :=
  h.modFront (fun q => { q with bad := q.bad || bad, clamp := q.clamp || clamp, band := q.band || band })

def Hearth.frontDone (h : Hearth) : Hearth := h.modFront (fun q => { q with done := true })

/-- Writes to FNSm made during a run take effect (R232). -/
def Hearth.fnsApply (h : Hearth) : Hearth :=
  { (h.fnsLate.foldl (fun (h : Hearth) w => h.wr w.1 w.2) h) with fnsLate := [] }

/-- The first request computes: it is a run of FK0, FK1, FK2, FK4 or FK5 or the first phase of a step, started and not over. -/
def Hearth.computing (h : Hearth) : Bool :=
  match h.ful with
  | [] => false
  | q :: _ => q.started && !q.done && q.phase == 0 && q.kind != .run 3 && q.kind != .red

/-- The first `cyc` cycles of the compute of the first request (R228; 09 R253, R264 to R266). -/
def State.computeFor (s : State) (h : Hid) (cyc : Nat) : State :=
  match (s.hearth h).ful with
  | [] => s
  | q :: _ =>
    let ends (r : Run) : State := r.s.modHearth h (fun x => x.ran r.bad r.clamp r.band)
    match q.kind with
    | .run 4 =>
      let r := s.runStat h q cyc
      r.s.modHearth h (fun x => (x.ran r.bad false false).modFront (fun q => { q with lanes := r.l }))
    | .run 5 => ends (s.runUpd h q cyc)
    | .lrun => ends (s.runList h q cyc)
    | .run k => ends (s.runFk h q.mat k q.first q.count cyc)
    | .step k => ends (s.runFk h q.mat k q.first q.count cyc)
    | .red => s

/-- The barrier channel 1 lets this hearth pass without waiting: FPART.STP = 0 (R242). -/
def Hearth.passes (h : Hearth) : Bool := !tb (h.rd 0x460) 8

/-- A step ends: FSUB.SUBK counts it (R240). -/
def Hearth.stepEnd (h : Hearth) : Hearth :=
  ({ h with frinGot := 0 } : Hearth).wr 0x41C (putF (h.rd 0x41C) 0 16 (fld (h.rd 0x41C) 0 16 + 1)) |>.frontDone

/-- A push is over when every entry has left and has landed, been answered or failed (R238): a run of FK3 is done, a
step goes to barrier B. -/
def Hearth.pushOver (h : Hearth) : Hearth :=
  match h.ful with
  | [] => h
  | q :: _ =>
    let all := decide (q.count ≤ q.next)
    if q.kind = .run 3 then (if q.started && all && q.halo = 0 && q.remote = 0 then h.frontDone else h)
    else if q.phase = 2 && all && q.halo = 0 && (q.remote = 0 || q.scope = 2) then
      (let h1 := h.fnsApply.modFront (fun q => { q with phase := 3 })
       if h.passes then h1.stepEnd else h1)
    else h

/-- Entries that can leave leave, and the push ends if it is over. -/
def State.pump (s : State) (h : Hid) : State :=
  match (s.hearth h).ful with
  | [] => s
  | q :: _ =>
    if q.started && !q.done && (q.kind == .run 3 || q.phase == 2) then
      (s.pushMany h 0 (q.count - q.next)).modHearth h (fun x => x.pushOver)
    else s

/-- A step goes on to its push: entries 0 to FPL.COUNT - 1 (R240). -/
def State.stepPush (s : State) (h : Hid) : State :=
  (s.modHearth h (fun x => x.modFront (fun q => { q with phase := 2, first := 0, next := 0, count := fld (x.rd 0x404) 0 11 }))).pump h

/-- The compute of the first request is over: a run is done, a step goes to barrier A (R240). -/
def State.compute (s : State) (h : Hid) : State :=
  match (s.hearth h).ful with
  | [] => s
  | q :: _ =>
    if !(s.hearth h).computing then s
    else
      let s1 := (s.computeFor h (q.count + 64)).modHearth h Hearth.fnsApply
      match q.kind with
      | .step _ =>
        let s2 := s1.modHearth h (fun x => x.modFront (fun q => { q with phase := 1 }))
        if (s.hearth h).passes then s2.stepPush h else s2
      | _ => s1.modHearth h Hearth.frontDone

/-- The first request starts if it has not (R236): a run of FK0 to FK2 or a step latches the material records (R228), a step its
range and scope, FK4 its lanes and map range (09 R253, R255), a reduction reads its lanes (09 R261), and FK5 checks the age of its
observation (09 R264). -/
def State.startFront (s : State) (h : Hid) : State :=
  match (s.hearth h).ful with
  | [] => s
  | q :: _ =>
    if q.started then s
    else
      let s1 := s.modHearth h (fun x => x.modFront (fun q => { q with started := true }))
      let upd5 (s1 : State) : State :=
        if q.count = 0 then s1.modHearth h Hearth.frontDone
        else if (s.hearth h).tooOld q (s.epochOf h) then s1.modHearth h (fun x => (x.fastatBit 2).frontDone)
        else s1
      if (s.hearth h).badReq q then s1.modHearth h (fun x => x.modFront (fun q => { q with status := 6, done := true }))
      else
        match q.kind with
        | .step _ => s1.modHearth h (fun x => x.modFront (fun q =>
            { q with mat := s.matLatch h, first := fld (x.rd 0x400) 0 12, count := fld (x.rd 0x400) 16 13, scope := fld (x.rd 0x408) 0 2 }))
        | .red =>
          if q.num = 0 then s1.modHearth h Hearth.frontDone
          else s1.modHearth h (fun x => x.modFront (fun q =>
            { q with lanes := (List.range q.count).map (fun l => s.laneAt h (q.first + l)) }))
        | .run k =>
          if q.count = 0 then s1.modHearth h Hearth.frontDone
          else if k = 3 then s1.pump h
          else if k = 4 then
            let r := s1.statStart h
            r.1.modHearth h (fun x => x.modFront (fun q => { q with lanes := r.2.1, map := r.2.2 }))
          else if k = 5 then upd5 s1
          else s1.modHearth h (fun x => x.modFront (fun q => { q with mat := s.matLatch h }))
        | .lrun => upd5 s1

/-- A request enters the queue and starts if it is the first; one with NR = 0 makes FUL.r pending (R236). A reduction
that counts takes the next number of its hearth, from 1 (09 R258). -/
def State.fulAdd (s : State) (h : Hid) (k : FulKind) (nr : Bool) (first count scope : Nat) : State :=
  let x := s.hearth h
  let q := x.fulReq (s.nextId + 1) k nr first count scope
  let c := x.redCounts q
  let q1 := { q with num := if c then x.redN + 1 else 0 }
  ({ s.setHearth h { x with
      ful := x.ful ++ [q1], redN := if c then x.redN + 1 else x.redN, fulPend := x.fulPend || !nr } with
    nextId := s.nextId + 1 }).startFront h

/-- Whether a FUL trigger is held: FUL.r pending with NR = 0, the sub-limit of 12, the table (R236; 06 R170). -/
def Hearth.fulHeld (h : Hearth) (nr : Bool) : Bool :=
  (!nr && h.fulPend) || decide (12 ≤ h.nFrq) || decide (48 ≤ h.ottUsed)

/-- A FUL trigger after its checks: run, step, red, lrun (Table FE-7; 09 R257, R266). -/
inductive FulOp where
  | run
  | step
  | red
  | lrun
deriving DecidableEq, Repr

/-- The FUL operations in trigger order, ids 0xD8 to 0xDB. -/
def fulOps : List FulOp := [.run, .step, .red, .lrun]

def State.fulFire (s : State) (h : Hid) (k : FulOp) (t : Word) : State :=
  let o := (s.hearth h).fulO
  let nr := tb t 7
  match k with
  | .run =>
    if fld t 0 3 = 3 then s.fulAdd h (.run 3) nr (fld o 0 10) (fld o 16 11) 0
    else s.fulAdd h (.run (fld t 0 3)) nr (fld o 0 12) (fld o 16 13) 0
  | .step => s.fulAdd h (.step (fld t 0 3)) nr 0 0 0
  | .red => s.fulAdd h .red nr (fld o 0 9) (fld o 16 10) (fld t 0 2)
  | .lrun => s.fulAdd h .lrun nr (fld o 0 10) (fld o 16 10) 0

def State.fulRow (s : State) (h : Hid) (k : FulOp) (t : Word) : Out :=
  if (s.hearth h).fulHeld (tb t 7) then .next (s.stallCycle h false) else .next (s.fulFire h k t)

/-- FK0: trigger run with kernel 0 (Table FE-7). -/
def execFk0 (h : Hid) (t : Word) (s : State) : Out := s.fulRow h .run (putF t 0 3 0)
/-- FK1: trigger run with kernel 1. -/
def execFk1 (h : Hid) (t : Word) (s : State) : Out := s.fulRow h .run (putF t 0 3 1)
/-- FK2: trigger run with kernel 2. -/
def execFk2 (h : Hid) (t : Word) (s : State) : Out := s.fulRow h .run (putF t 0 3 2)
/-- FK3: trigger run with kernel 3 (R238). -/
def execFk3 (h : Hid) (t : Word) (s : State) : Out := s.fulRow h .run (putF t 0 3 3)
/-- FK4: trigger run with kernel 4 (09 R253). -/
def execFk4 (h : Hid) (t : Word) (s : State) : Out := s.fulRow h .run (putF t 0 3 4)
/-- FK5: trigger run with kernel 5 (09 R265). -/
def execFk5 (h : Hid) (t : Word) (s : State) : Out := s.fulRow h .run (putF t 0 3 5)
/-- STEP (R240). -/
def execStep (h : Hid) (t : Word) (s : State) : Out := s.fulRow h .step t
/-- RED (09 R257). -/
def execRed (h : Hid) (t : Word) (s : State) : Out := s.fulRow h .red t
/-- LRUN (09 R266). -/
def execLrun (h : Hid) (t : Word) (s : State) : Out := s.fulRow h .lrun t

/-! ## Completion -/

/-- The status word of a request (Table FE-8). -/
def fulStatus (q : FulReq) : Word := w32 q.status.toNat ||| bitAt q.bad 8 ||| bitAt q.clamp 9 ||| bitAt q.band 10

/-- FULLING_COMPLETION (R236): the first request's compute is over; one that is done leaves, its status in FUL.r or line 6 raised.
FK4 writes its lanes back (09 R255). -/
def execFullingCompletion (h : Hid) (s0 : State) : Out :=
  if !s0.stackRuns (stackOf h) then .next s0
  else
    let s := (s0.compute h).pump h
    match (s.hearth h).ful with
    | [] => .next s
    | q :: r =>
      if !q.done then .next s
      else
        let s1 := if q.kind = .run 4 && q.status = 0 && q.count != 0 then s.writeLanes h q.lanes else s
        .next ((s1.modHearth h (fun x =>
          let y := { x.fnsApply with ful := r }
          if q.nr then y.raise 6 else { y with rs := y.rs.set 11 (fulStatus q), fulPend := false })).startFront h)

/-- Whether an entry is served before another at its bank (R239): ready in an earlier cycle, or in the same one from its own stack
before another, or with the lower source local index. -/
def haloBefore (a b : HaloItem) : Bool :=
  let far (x : HaloItem) : Nat := if stackOf x.src = stackOf x.dst then 0 else 1
  decide (a.due < b.due) || (a.due == b.due && (decide (far a < far b) || (far a == far b && decide (localIx a.src < localIx b.src))))

/-- The entry under way to a bank that lands next, the one given first among equals. -/
def nextHalo (l : List HaloItem) : Option HaloItem :=
  l.foldl (fun (b : Option HaloItem) x =>
    match b with
    | none => some x
    | some y => if haloBefore x y then some x else b) none

/-- HALO_LANDING (R238, R239): the next entry under way to a bank lands, whole: through port A from its own stack, through port B
from another (R246). -/
def execHaloLanding (h : Hid) (s : State) : Out :=
  match nextHalo (s.felt.items.filter (fun i => i.dst == h)) with
  | none => .next s
  | some i =>
    if !s.stackRuns (stackOf h) then .next s
    else
      let s0 := { s with felt := { s.felt with items := s.felt.items.erase i } }
      let bs := i.data.flatMap (fun c => leBytes 2 c)
      let o := 0x40000 + 16 * i.hslot
      let s1 := if stackOf i.src = stackOf h then s0.portAs h o (wordsOf bs) else s0.portB (feltKey h o) bs
      let mine : Bool := match (s1.hearth i.src).ful with
        | [] => false
        | q :: _ => q.id == i.req
      if mine then .next ((s1.modHearth i.src (fun x => x.modFront (fun q => { q with halo := q.halo - 1 }))).pump i.src)
      else .next s1

/-! ## Barriers (R241 to R243) -/

/-- The participation bit of a hearth in a scope of a channel (R241). -/
def Hearth.takesPart (h : Hearth) (ch : Fin 2) (scope : SyncScope) : Bool :=
  let p := h.rd 0x460
  if ch = 1 then tb p 8
  else match scope with
    | .stack => tb p 0
    | .device => tb p 1
    | .neighbourhood => tb p 2

def scopeNo : SyncScope → Nat
  | .stack => 0
  | .device => 1
  | .neighbourhood => 2

/-- A hearth has arrived at the barrier of a scope on a channel. -/
def Hearth.arrived (h : Hearth) (ch : Fin 2) (scope : SyncScope) : Bool :=
  if ch = 0 then h.arr0 == some scope
  else match h.ful with
    | [] => false
    | q :: _ => q.started && !q.done && (q.phase == 1 || q.phase == 3) && q.scope == scopeNo scope

/-- The hearths a scope covers: those of stack `k`, or all. -/
def scopeHearths (scope : SyncScope) (k : Fin 8) : List Hid :=
  match scope with
  | .stack => hearthsOf k
  | .device => allHearths
  | .neighbourhood => allHearths

/-- FSTAT.NBOV on the hearths that listed nodes beyond the eight (R243). -/
def State.markNbov (s : State) : State :=
  let n := s.neighbours
  s.frnList.foldl (fun (s : State) p => if n.contains p.2 then s else s.modHearth p.1 (fun x => x.fstatBit 13)) s

/-- Which barrier is under way at a hearth: 0 SYNC, 1 barrier A, 2 barrier B. -/
def Hearth.barrierNo (h : Hearth) (ch : Fin 2) : Nat :=
  if ch = 0 then 0
  else match h.ful with
    | [] => 1
    | q :: _ => if q.phase = 3 then 2 else 1

/-- The tag of the tokens of a barrier: the epoch, and the substep or the count of SYNC barriers (log entry 13). -/
def State.barrierTag (s : State) (ch : Fin 2) : Nat × Nat :=
  if ch = 0 then (s.epochOf 0 % 256, s.felt.cnt0 % 256) else s.subTag

/-- A hearth that waits at a barrier whose remote part is under way: 0 of SYNC, 1 barrier A, 2 barrier B. -/
def Hearth.remoteAt (h : Hearth) (bar : Nat) : Bool :=
  if bar = 0 then h.arr0 == some .neighbourhood else h.arrived 1 .neighbourhood && h.barrierNo 1 == bar

/-- An outcome of a remote item of a barrier at a hearth that waits there (R237, R244). -/
def Hearth.remoteEnd (h : Hearth) (bar : Nat) (st : Byte) : Hearth :=
  if bar = 0 then h.fstatBit (if st = 4 then 12 else 11) else h.itemEnd st

/-- The token exchange with a node failed: that item is no longer waited for, and the hearths at the barrier have LINKFAIL
(R244). -/
def State.loseToken (s : State) (n : BitVec 14) (bar : Nat) (tag : Nat × Nat) : State :=
  ({ s with felt := { s.felt with gone := s.felt.gone ++ [⟨n, bar, tag.1, tag.2⟩] } } : State).mapHearths
    (fun _ x => if x.remoteAt bar then x.remoteEnd bar 4 else x)

/-- FRTO of a hearth has passed since `t0`; the limit is in µs. -/
def State.frtoOver (s : State) (h : Hid) (t0 : Nat) : Bool := decide (t0 + 1000 * fld ((s.hearth h).rd 0x45C) 0 16 ≤ s.now)

/-- The tokens of a barrier are sent, once, when the device part is complete; one that cannot be sent has failed (R241, R244).
TAG 1 marks those of SYNC (log entry 13). -/
def State.sendTokens (s : State) (ch : Fin 2) (bar : Nat) : State :=
  if s.felt.sent.any (fun b => b.1 == bar) then s
  else
    let tag := s.barrierTag ch
    s.neighbours.foldl (fun (s : State) n =>
      match s.sendRouted none (s.frame 0x0B .gs n (if bar = 0 then 1 else 0) 0x3F (if bar = 2 then 1 else 0) (w32 (tag.1 + tag.2 * 2 ^ 8)) []) with
      | some s1 => s1
      | none => s.unrouted.loseToken n bar tag)
      { s.markNbov with felt := { s.felt with sent := (bar, s.now) :: s.felt.sent } }

/-- What barrier B waits for beside its tokens: every remote push of the device answered, and at every hearth the entries it
expects (R241). -/
def State.pushesIn (s : State) : Bool :=
  !s.lk.tags.any (fun t => match t.2.1 with
      | .halo _ _ => true
      | _ => false)
    && allHearths.all (fun h => decide (fld ((s.hearth h).rd 0x458) 0 11 ≤ (s.hearth h).frinGot))

/-- The remote part of a neighbourhood barrier holds for a hearth: a token of every neighbour, at barrier B the pushes too, or it
has given up (R241, R244). -/
def State.remoteOk (s : State) (ch : Fin 2) (h : Hid) : Bool :=
  let x := s.hearth h
  let bar := x.barrierNo ch
  let tag := s.barrierTag ch
  let all := s.neighbours.all (fun n => s.hasTok bar tag n || tokIn s.felt.gone bar tag n) && (bar != 2 || s.pushesIn)
  if ch = 0 then x.arrLost || all
  else match x.ful with
    | [] => true
    | q :: _ => q.lost || all

/-- The barrier ends for a hearth that waits at it. -/
def State.passBarrier (s : State) (ch : Fin 2) (h : Hid) : State :=
  if ch = 0 then
    s.modHearth h (fun x =>
      let y : Hearth := { x with arr0 := none, arrLost := false }
      match x.wait with
      | .sync _ => { y with wait := .none }
      | _ => y)
  else match (s.hearth h).ful with
    | [] => s
    | q :: _ =>
      if q.phase = 1 then (s.modHearth h (fun x => x.modFront (fun q => { q with lost := false }))).stepPush h
      else s.modHearth h Hearth.stepEnd

/-- The tokens of a neighbourhood barrier that ended are used up; those of barrier A serve the push until barrier B ends. After
barrier B every hearth counts the entries of the next substep. -/
def State.useTokens (s : State) (bar : Nat) (tag : Nat × Nat) : State :=
  let keep (t : StepTok) : Bool :=
    bar == 1 || !(if bar = 0 then t.bar == 0 && t.count == tag.2 else t.bar != 0 && t.epoch == tag.1 && t.count == tag.2)
  let s1 : State := { s with felt := { s.felt with
      toks := s.felt.toks.filter keep, gone := s.felt.gone.filter keep, sent := s.felt.sent.filter (fun n => n.1 != bar)
      cnt0 := if bar = 0 then s.felt.cnt0 + 1 else s.felt.cnt0 } }
  if bar = 2 then s1.mapHearths (fun _ x => { x with frinGot := 0 }) else s1

/-- The front request of a hearth is a step of this scope that computes. -/
def Hearth.stepComputes (h : Hearth) (scope : SyncScope) : Bool :=
  h.computing && (match h.ful with
    | [] => false
    | q :: _ => q.scope == scopeNo scope && (match q.kind with
      | .step _ => true
      | _ => false))

/-- BARRIER_COMPLETE (R241, R242): a barrier ends for every hearth that waits at it when all its participants have arrived; a
compute under way has then ended (log entry 48). -/
def execBarrierComplete (ch : Fin 2) (scope : SyncScope) (k : Fin 8) (s0 : State) : Out :=
  let hs := scopeHearths scope k
  let s := if ch = 1 then hs.foldl (fun (s : State) h => if (s.hearth h).stepComputes scope then s.compute h else s) s0 else s0
  let ps := hs.filter (fun h => (s.hearth h).runs && (s.hearth h).arrived ch scope)
  let late := hs.any (fun h => (s.hearth h).takesPart ch scope && (s.hearth h).runs && !(s.hearth h).arrived ch scope)
  match ps with
  | [] => .next s0
  | h0 :: _ =>
    if late || !hs.all (fun h => s0.stackRuns (stackOf h)) then .next s0
    else if scope = .neighbourhood then
      let bar := (s.hearth h0).barrierNo ch
      let s1 := s.sendTokens ch bar
      if ps.all (fun h => s1.remoteOk ch h) then .next (ps.foldl (fun (s : State) h => s.passBarrier ch h) (s1.useTokens bar (s.barrierTag ch)))
      else .next s1
    else .next (ps.foldl (fun (s : State) h => s.passBarrier ch h) s)

/-- The tags of a hearth's pushes that satisfy `p` are dropped, and the push it waits to send (R244, R248; 12 R357). -/
def State.dropHalo (s : State) (h : Hid) (p : Nat → Bool) : State :=
  (s.lk.tags.filter (fun t => match t.2.1 with
    | .halo g _ => g == h && p t.2.2
    | _ => false)).foldl (fun (s : State) t => s.dropTag t.1) s

/-- FRTO_EXPIRY (R244): the items for which a hearth has waited for FRTO, of SYNC or of its first request, end with TIMEOUT: an entry
since it was sent, a barrier's tokens and inbound entries since its own tokens were. -/
def execFrtoExpiry (h : Hid) (s : State) : Out :=
  let x := s.hearth h
  let late (bar : Nat) : Bool := s.felt.sent.any (fun b => b.1 == bar && s.frtoOver h b.2)
  if !s.stackRuns (stackOf h) then .next s
  else if x.arr0 = some .neighbourhood then
    (if late 0 && !x.arrLost then .next (s.modHearth h (fun x => ({ x with arrLost := true } : Hearth).remoteEnd 0 3)) else .next s)
  else match x.ful with
    | [] => .next s
    | q :: _ =>
      let n := (s.lk.tags.filter (fun t => match t.2.1 with
        | .halo g _ => g == h && s.frtoOver h t.2.2
        | _ => false)).length
      let b := x.arrived 1 .neighbourhood && late (x.barrierNo 1) && !q.lost
      if !q.started || q.done || (n = 0 && !b) then .next s
      else
        .next (((s.dropHalo h (s.frtoOver h)).modHearth h (fun x =>
          (x.itemEnd 3).modFront (fun q => { q with remote := q.remote - n, lost := q.lost || b }))).pump h)

/-! ## Reductions (09 R258, R259) -/

/-- The request of a hearth with number `n` in the tree: its first request, started, or one that was dropped. -/
def Hearth.redAt (h : Hearth) (n : Nat) : Option FulReq :=
  match h.redOld.find? (fun q => q.num == n) with
  | some q => some q
  | none =>
    match h.ful with
    | [] => none
    | q :: _ => if q.kind = .red && q.started && !q.done && q.num = n then some q else none

/-- The hearths of a scope. -/
def redScope (d : Bool) (k : Fin 8) : List Hid := if d then allHearths else hearthsOf k

/-- The participants of round `n` of a scope: the hearths with FARP.RP = 1, and those with a request there. -/
def State.redParts (s : State) (d : Bool) (k : Fin 8) (n : Nat) : List Hid :=
  (redScope d k).filter (fun h => tb ((s.hearth h).rd 0x498) 0 || ((s.hearth h).redAt n).isSome)

/-- The least number under way in a scope, 0 if none. -/
def State.redNow (s : State) (ps : List Hid) : Nat :=
  ps.foldl (fun m h =>
    let x := s.hearth h
    let c := (x.redOld ++ x.ful.take 1).filter (fun q => q.kind == .red && q.started && !q.done && q.num != 0)
    c.foldl (fun m q => if m = 0 then q.num else min m q.num) m) 0

/-- A participant has arrived at round `n`: with a request, past it, or not running (R259). -/
def Hearth.redArrived (h : Hearth) (n : Nat) : Bool :=
  (h.redAt n).isSome || !h.runs || (decide (n ≤ h.redN) && !h.ful.any (fun q => q.num == n))

/-- Whether a participant passed number `n` in an earlier round: a mismatch (R258). -/
def Hearth.redPassed (h : Hearth) (n : Nat) : Bool := h.runs && (h.redAt n).isNone && decide (n ≤ h.redN)

/-- A participant contributes 0: it has no request or its lanes were never read (R259). -/
def Hearth.redShort (h : Hearth) (n : Nat) : Bool :=
  match h.redAt n with
  | none => true
  | some q => q.lanes.isEmpty

/-- The sum of lane `i` of the round over its requests. -/
def redSum (qs : List FulReq) (i : Nat) : Int := qs.foldl (fun r q => r + q.lanes.getD i 0) 0

/-- A request of the round leaves the tree: done with a status, or dropped. -/
def Hearth.redEnd (h : Hearth) (n : Nat) (st : Byte) : Hearth :=
  let h1 : Hearth := { h with redOld := h.redOld.filter (fun q => q.num != n), redN := max h.redN n }
  match h.ful with
  | [] => h1
  | q :: _ => if q.kind = .red && q.num = n then h1.modFront (fun q => { q with status := st, done := true }) else h1

/-- The round with number `n` completes over participants `ps` (R258). -/
def State.redRound (s : State) (d : Bool) (ps : List Hid) (n : Nat) : State :=
  let qs := ps.filterMap (fun h => (s.hearth h).redAt n)
  let read := qs.filter (fun q => !q.lanes.isEmpty)
  let mism := (d && ps.any (fun h => (s.hearth h).redPassed n)) || (match read with
    | [] => false
    | q0 :: r => r.any (fun q => q.scope != q0.scope || q.first != q0.first || q.count != q0.count))
  let s1 :=
    if mism then s.mapHearths (fun h x => if ps.contains h then (x.redEnd n 6).fastatBit 4 else x)
    else
      match read with
      | [] => s.mapHearths (fun h x => if ps.contains h then x.redEnd n 0 else x)
      | q0 :: _ =>
        let sums := (List.range q0.count).map (fun i => sat64 (redSum read i))
        let short := ps.any (fun h => (s.hearth h).redShort n)
        let gets := ps.filter (fun h => (s.hearth h).ful.any (fun q => q.kind == .red && q.num == n && q.started))
        let s2 := gets.foldl (fun (s : State) h =>
          (List.range q0.count).foldl (fun (s : State) i => s.setLane h (q0.first + i) (sums.getD i (0, false)).1) s) s
        s2.mapHearths (fun h x =>
          if ps.contains h then
            let y := x.redEnd n 0
            let y1 := if sums.any (fun v => v.2) then y.fastatBit 3 else y
            if short && gets.contains h then y1.fastatBit 5 else y1
          else x)
  s1.raiseAll 7

/-- A hearth that takes no part in round `n` matches the next one (R259). -/
def State.redFollow (s : State) (d : Bool) (k : Fin 8) (ps : List Hid) (n : Nat) : State :=
  s.mapHearths (fun h x => if (redScope d k).contains h && !ps.contains h then { x with redN := max x.redN n } else x)

/-- REDUCTION_COMPLETE (R258): the round of stack `k`, or of the device, whose requests have all arrived. -/
def execReductionComplete (d : Bool) (k : Fin 8) (s : State) : Out :=
  let n := s.redNow (redScope d k)
  let ps := s.redParts d k n
  let dev := allHearths.any (fun h => ((s.hearth h).redAt n).any (fun q => q.scope == 1))
  if n = 0 || dev != d || !(redScope d k).all (fun h => s.stackRuns (stackOf h)) then .next s
  else if ps.all (fun h => (s.hearth h).redArrived n) then .next ((s.redRound d ps n).redFollow d k ps n)
  else .next s

/-! ## Reset and halt (R248) -/

/-- The unit stops: after a free number of cycles of its compute, which R245 and R234 leave to the time of the stop, with the
write-backs not made discarded; its requests are dropped, reductions among them leaving their place in the tree (09 R259), and
writes to FNSm made during the run take effect (R232). -/
def State.fulStop (s : State) (h : Hid) : State :=
  let s1 := if (s.hearth h).computing then
      { s.computeFor h (Config.freeNat s.free % ((match (s.hearth h).ful with
          | [] => 0
          | q :: _ => q.count) + 64)) with free := s.free + 1 } else s
  ((s1.dropHalo h (fun _ => true)).unwaitAll (fun u => match u with
      | .halo g _ => g == h
      | _ => false)).modHearth h (fun x =>
    let y := x.fnsApply
    { y with
      redOld := y.redOld ++ (y.ful.filter (fun q => q.num != 0 && !q.done)).map (fun q => { q with started := true })
      ful := [], fulAbort := y.fulPend })

/-- A hearth that resumes without a reset finds a pending FUL.r ABORTED (R248). -/
def Hearth.fulResume (h : Hearth) : Hearth :=
  if h.fulAbort then { h with fulAbort := false, fulPend := false, rs := h.rs.set 11 7 } else h

end Sys2Proof.Machine
end

