-- ==== Sys2Proof/Machine/Control.lean ====
section
/-!
DEFINITION. The flow of control of a hearth: fetch (03 R61, 06 R181), supply (03 R82 to R86), loops (R91 to R98), REP
(R99 to R103), transfers with their delay slots (R87 to R90, R97), the completion of a word (R96, R62), and the CTL
rows, each of which is the issue of a word that holds that trigger alone.
-/
namespace Sys2Proof.Machine
open Sys2Proof

/-! ## Fetch -/

/-- The active bank of a stack (01 R33). -/
def State.activeBank (s : State) (k : Fin 8) : Nat := if s.bank.getLsbD k.val then 1 else 0

/-- The 96-bit word at index `w` as hearth `h` fetches it: from a patched line whose visibility bit is set, else from
the bank (R61, R181). -/
def State.fetch (s : State) (h : Hid) (w : Nat) : IWord :=
  let k := stackOf h
  let bs := match (s.stack k).patch.find? (fun p => p.line == w / 4 && p.mask.getLsbD (localIx h)) with
    | some p => (p.data.drop (w % 4 * 12)).take 12
    | none => s.bytes (progKey k (s.activeBank k) (w / 4 * 48 + w % 4 * 12)) 12
  BitVec.ofNat 96 (leNat bs)

/-- The word at index `w` as the crown holds it, or else the BTB entry of the last transfer (R82, R84). -/
def Hearth.supplied (h : Hearth) (w : Nat) : Option IWord :=
  match (match h.crown with
    | some c => if c.first ≤ w then c.words[w - c.first]? else none
    | none => none) with
  | some i => some i
  | none => (h.btbOut.find? (fun e => e.1 == w)).map (fun e => e.2)

/-- The word that reaches the issue stage of hearth `h` for index `w`: from the crown, from the BTB, or fetched. -/
def State.wordAt (s : State) (h : Hid) (w : Nat) : IWord := ((s.hearth h).supplied w).getD (s.fetch h w)

/-- Invalidation of the crown, the BTB and the prefetch buffer (R85). -/
def Hearth.invalidate (h : Hearth) : Hearth := { h with crown := none, loads := [], btb := [], btbOut := [] }

/-! ## Supply (R82 to R86)

`ft` gives the word at an index as the hearth fetches it from the program store. -/

/-- Whether an index lies in the valid range of the crown. -/
def Hearth.inCrown (h : Hearth) (w : Nat) : Bool :=
  match h.crown with
  | none => false
  | some c => decide (c.first ≤ w) && decide (w < c.first + c.words.length)

/-- The words of indexes `f` to `l` as they are fetched. -/
def fetchRange (ft : Nat → IWord) (f l : Nat) : List IWord := (List.range (l + 1 - f)).map (fun i => ft (f + i))

/-- A taken transfer or loop-back from `src` to `tgt`: the BTB is searched, a miss installs an entry in place of the
least recently used one, and the extra cycles are those of Table HT-9. -/
def Hearth.supply (ft : Nat → IWord) (h : Hearth) (src tgt : Nat) : Hearth × Nat :=
  let same := fun (e : BtbEntry) => e.src == src && e.tgt == tgt
  let hit := h.btb.find? same
  let ws := hit.elim (fetchRange ft tgt (min (tgt + 3) 0x7FFF)) (fun e => e.words)
  ({ h with
     btb := (⟨src, tgt, ws⟩ :: h.btb.filter (fun e => !same e)).take 32
     btbOut := if hit.isSome then ws.mapIdx (fun i w => (tgt + i, w)) else [] },
   if hit.isSome || h.inCrown tgt then 0 else 3)

/-! ## Loops -/

def Hearth.s0 (h : Hearth) : Nat := fld h.lps 0 15
def Hearth.s1 (h : Hearth) : Nat := fld h.lps 16 15
def Hearth.e0 (h : Hearth) : Nat := fld h.lpe 0 15
def Hearth.e1 (h : Hearth) : Nat := fld h.lpe 16 15
def Hearth.a0 (h : Hearth) : Nat := fld h.lpa 0 16
def Hearth.a1 (h : Hearth) : Nat := fld h.lpa 16 16
def Hearth.remain (h : Hearth) : Nat := fld h.repc 16 16

/-- The body of a level, by its first and last word. -/
def Hearth.body (h : Hearth) (l : Nat) : Nat × Nat := (fld h.lps (16 * l) 15, fld h.lpe (16 * l) 15)

/-- A loop level ends: a crown load that was under way for its body stays without effect (R83). -/
def Hearth.endLevel (h : Hearth) (l : Nat) : Hearth :=
  { h with lpa := putF h.lpa (16 * l) 16 0, loads := h.loads.erase (h.body l) }

/-- A loop-back to the first word of a level: one iteration less, and a body that was loading is what the crown holds from
here on (R83, R96). -/
def Hearth.loopBack (ft : Nat → IWord) (h : Hearth) (l : Nat) : Hearth :=
  { h with
    lpa := putF h.lpa (16 * l) 16 (fld h.lpa (16 * l) 16 - 1)
    crown := if h.loads.contains (h.body l) then some ⟨(h.body l).1, fetchRange ft (h.body l).1 (h.body l).2⟩ else h.crown
    loads := h.loads.erase (h.body l) }

/-- The loop-back decision after the word at `a` completes (R96): the next index, and the first word looped to. -/
def Hearth.afterWord (ft : Nat → IWord) (h : Hearth) (a : Nat) : Hearth × Nat × Bool :=
  let at0 (h : Hearth) : Hearth × Nat × Bool :=
    if h.a0 ≠ 0 && a == h.e0 then
      (if 1 < h.a0 then (h.loopBack ft 0, h.s0, true) else (h.endLevel 0, a + 1, false))
    else (h, a + 1, false)
  if h.a1 ≠ 0 then
    (if a = h.e1 then (if 1 < h.a1 then (h.loopBack ft 1, h.s1, true) else at0 (h.endLevel 1)) else (h, a + 1, false))
  else at0 h

/-- Loop levels ended by a taken transfer to `t` (R97). -/
def Hearth.leaveLoops (h : Hearth) (t : Nat) : Hearth :=
  let h1 := if h.a1 ≠ 0 && !within h.s1 t h.e1 then h.endLevel 1 else h
  if h1.a1 = 0 && h1.a0 ≠ 0 && !within h1.s0 t h1.e0 then h1.endLevel 0 else h1

/-- The effective count of CTL.loop (R91). -/
def Hearth.loopCount (h : Hearth) (t : Word) : Nat := if fld t 0 16 ≠ 0 then fld t 0 16 else fld h.lpc 0 16

/-- The last word of the body that CTL.loop names: CTL.o[14:0] (R91). -/
def Hearth.loopEnd (h : Hearth) : Nat := fld (h.opnd 0x2F) 0 15

/-- CTL.loop at word `a` raises a control hazard (R94). -/
def Hearth.loopBad (h : Hearth) (a : Nat) : Bool :=
  (h.a0 ≠ 0 && h.a1 ≠ 0) || decide (h.loopEnd < a + 1)
    || (h.a0 ≠ 0 && h.a1 == 0 && (decide (h.e0 < a + 1) || decide (h.e0 < h.loopEnd)))

/-- The crown at the start of a loop over `f`..`l` (R83). The range it held stops being valid as the new load begins, where
the spec is silent (DESIGN CHOICE, log entry 23); the load of an outer body that is under way goes on. -/
def Hearth.crownStart (h : Hearth) (f l : Nat) : Hearth :=
  let h1 : Hearth := { h with loads := h.loads.erase (f, l) }
  if 256 < l - f + 1 then h1
  else if h.inCrown f && h.inCrown l then h1
  else { h1 with crown := none, loads := (f, l) :: h1.loads }

/-- CTL.loop at word `a` sets up a level with a count that is not 0 (R91, R92). -/
def Hearth.loopSet (h : Hearth) (a n : Nat) : Hearth :=
  let lv := if h.a0 = 0 then 0 else 1
  ({ h with
     lps := putF h.lps (16 * lv) 15 (a + 1)
     lpe := putF h.lpe (16 * lv) 15 h.loopEnd
     lpa := putF h.lpa (16 * lv) 16 n } : Hearth).crownStart (a + 1) h.loopEnd

/-! ## The completion of a word -/

/-- What a word's CTL trigger asks of the flow of control. -/
inductive Flow where
  | seq
  | jump (tgt : Nat) (call : Bool)
  | loop (n : Nat)
  | brk (code : Nat)
deriving DecidableEq, Repr

/-- The PC moves to `next`; past 0x7FFF the illegal-instruction fault of R62 is asked for, with PC 0 and no PBR. -/
def Hearth.goTo (h : Hearth) (next : Nat) : Hearth :=
  if 0x7FFF < next then
    ({ h with pc := 0, pbrV := false, pbrRem := 0, pbrTgt := 0 } : Hearth).ask ⟨.fault 7, 0x01, 0x01, 0, false, 0, false⟩
  else { h with pc := BitVec.ofNat 15 next }

/-- A word of a sequence completes: the loop-back decision, and a pending transfer's slot is used up (R87, R96). -/
def Hearth.step1 (ft : Nat → IWord) (h : Hearth) (a : Nat) : Hearth × Nat :=
  let r := h.afterWord ft a
  let h1 := r.1
  let sup := if r.2.2 then h1.supply ft a r.2.1 else (h1, 0)
  if h.pbrV then
    (if h.pbrRem.toNat ≤ 1 then
      let t := h.pbrTgt.toNat
      let h2 := if h.pbrCall then h1 else h1.leaveLoops t
      let r2 := ({ h2 with pbrV := false, pbrRem := 0, pbrTgt := 0, pbrCall := false } : Hearth).supply ft (a - 2) t
      (r2.1.goTo t, r2.2)
    else (({ sup.1 with pbrRem := h.pbrRem - 1 } : Hearth).goTo r.2.1, sup.2))
  else (sup.1.goTo r.2.1, sup.2)

/-- After a word at `a` that may hold a REP field of effective count `n`: the repeated word is next, or is skipped and
counts as completed at its own index (R99, R100). At 0x7FFF no word follows: the fault of R62 is asked for with PC 0, and
REMAIN keeps the count (DESIGN CHOICE, log entry 24). -/
def Hearth.repAt (ft : Nat → IWord) (h : Hearth) (a : Nat) (rp : Option Nat) : Hearth × Nat :=
  match rp with
  | none => h.step1 ft a
  | some n =>
    if n = 0 then
      let r := h.step1 ft (a + 1)
      (r.1, r.2 + 1)
    else (({ h with repc := putF h.repc 16 16 n } : Hearth).goTo (a + 1), 0)

/-- A taken transfer waits for its two delay slots (R87). -/
def Hearth.branch (h : Hearth) (t : Nat) (call : Bool) : Hearth :=
  { h with pbrV := true, pbrRem := 2, pbrTgt := BitVec.ofNat 15 t, pbrCall := call }

/-- The completion of the word at the PC: the flow its trigger and its REP field asked for, and the extra cycles that
follow. What the spec leaves open here the model settles so (DESIGN CHOICE, log entries 21 and 24). A REP word that also
holds a taken transfer: the repeated word, or the word skipped at count 0, is the first delay slot. A REP word that also holds a
loop of count 0: the word at `loopEnd + 1` is the repeated one, and with a REP count of 0 nothing is skipped and 4 extra
cycles pass. A loop of count 0 whose body ends at E0 of active level 0 leaves that level active and goes on at E0 + 1. A
transfer triggered by the word at 0x7FFF, whose slots would lie past the end, is lost to the fault of R62. -/
def Hearth.complete (ft : Nat → IWord) (h : Hearth) (f : Flow) (rp : Option Nat) : Hearth × Nat :=
  let a := h.pc.toNat
  if 1 < h.remain then ({ h with repc := putF h.repc 16 16 (h.remain - 1) }, 0)
  else
    let h1 : Hearth := { h with repc := putF h.repc 16 16 0, rep := none }
    match f with
    | .seq => h1.repAt ft a rp
    | .jump t call =>
      (match rp with
       | none => (((h1.step1 ft a).1).branch t call, (h1.step1 ft a).2)
       | some _ => (h1.branch t call).repAt ft a rp)
    | .loop n =>
      if n = 0 then
        (({ h1 with repc := putF h1.repc 16 16 (rp.getD 0) } : Hearth).goTo (h1.loopEnd + 1), if rp = some 0 then 4 else 3)
      else
        (match rp with
         | none => ((h1.loopSet a n).goTo (a + 1), 0)
         | some _ => (h1.loopSet a n).repAt ft a rp)
    | .brk c =>
      let r := h1.repAt ft a rp
      (r.1.ask ⟨.fault 6, 0x0B, BitVec.ofNat 8 c, r.1.pc, false, 0, false⟩, 0)

/-- A word completes and its issue cycle ends; no cycle is added for the supply of the next word. -/
def State.finishNow (s : State) (h : Hid) (f : Flow) (rp : Option Nat) : State :=
  (s.endCycle h).modHearth h (fun x => (x.complete (s.fetch h) f rp).1)

/-- A word completes and its issue cycle ends; the extra cycles of Table HT-9 follow. -/
def State.finish (s : State) (h : Hid) (f : Flow) (rp : Option Nat := none) : State :=
  (s.finishNow h f rp).extraCycles h ((s.hearth h).complete (s.fetch h) f rp).2

/-! ## The CTL triggers (Table OM-4) -/

/-- The return address of a call at word `a`, written to CTL.ra with latency 1 (R145). -/
def Hearth.link (h : Hearth) : Hearth :=
  h.fly .ctl 1 (.one 10 (w32 ((h.pc.toNat + 3) % 2 ^ 15))) false false false

/-- The target of a relative transfer: (a + sext32(T[15:0]))[14:0] (Table OM-4). -/
def Hearth.relative (h : Hearth) (t : Word) : Nat := trunc 15 ((h.pc.toNat : Int) + sgn 16 (fld t 0 16))

/-- A CTL trigger other than loop may not stand where a transfer may not: in a delay slot, on a repeated word, or in
the last three words of an active body for ids 0xD0 to 0xD5 (R88, R98, R101). -/
def Hearth.lastThree (h : Hearth) : Bool :=
  let a := h.pc.toNat
  (h.a0 ≠ 0 && within h.s0 a h.e0 && decide (h.e0 ≤ a + 2)) || (h.a1 ≠ 0 && within h.s1 a h.e1 && decide (h.e1 ≤ a + 2))

def Hearth.ctlHazard (h : Hearth) (brk : Bool) : Bool := h.pbrV || h.remain ≠ 0 || (!brk && h.lastThree)

/-- A word that holds a CTL trigger alone: a control hazard where it may not stand, else its flow. -/
def State.ctlRow (s : State) (h : Hid) (brk : Bool) (f : Hearth → Hearth) (w : Hearth → Flow) : Out :=
  let x := s.hearth h
  if x.ctlHazard brk then .next (s.preciseFault h 0x03) else .next (((s.startIssue h).modHearth h f).finish h (w x))

/-- JMP (Table OM-4). -/
def execJmp (h : Hid) (t : Word) (s : State) : Out := s.ctlRow h false id (fun _ => .jump (fld t 0 15) false)
/-- JMPR (Table OM-4). -/
def execJmpr (h : Hid) (t : Word) (s : State) : Out := s.ctlRow h false id (fun x => .jump (x.relative t) false)
/-- CALL (Table OM-4). -/
def execCall (h : Hid) (t : Word) (s : State) : Out := s.ctlRow h false Hearth.link (fun _ => .jump (fld t 0 15) true)
/-- CALLR (Table OM-4). -/
def execCallr (h : Hid) (t : Word) (s : State) : Out := s.ctlRow h false Hearth.link (fun x => .jump (x.relative t) true)
/-- The target of CTL.jtab: (T + O)[14:0]. -/
def Hearth.jtab (h : Hearth) (t : Word) : Nat := fld (t + h.opnd 0x2F) 0 15
/-- JTAB (Table OM-4). -/
def execJtab (h : Hid) (t : Word) (s : State) : Out := s.ctlRow h false id (fun x => .jump (x.jtab t) false)
/-- LOOP (R91, R94). -/
def execLoop (h : Hid) (t : Word) (s : State) : Out :=
  if (s.hearth h).loopBad (s.hearth h).pc.toNat then .next (s.preciseFault h 0x03)
  else s.ctlRow h false id (fun x => .loop (x.loopCount t))
/-- The flow of CTL.brk: the breakpoint where HCTL.BRKE enables it, else nothing. -/
def Hearth.breakAt (h : Hearth) (t : Word) : Flow := if tb (h.rd 0x008) 2 then .brk (fld t 0 8) else .seq

/-- BRK (Table OM-4). -/
def execBrk (h : Hid) (t : Word) (s : State) : Out := s.ctlRow h true id (fun x => x.breakAt t)

/-- The effective count of REP (R99). -/
def Hearth.repCount (h : Hearth) (n : Nat) : Nat := if n ≠ 0 then n else fld h.repc 0 16

/-- A REP word may not stand in a delay slot, on a repeated word, or at E of an active level (R88, R101). -/
def Hearth.repHazard (h : Hearth) : Bool :=
  h.pbrV || h.remain ≠ 0 || (h.a0 ≠ 0 && h.pc.toNat == h.e0) || (h.a1 ≠ 0 && h.pc.toNat == h.e1)

/-- REP (R99, R100). -/
def execRep (h : Hid) (n : BitVec 16) (s : State) : Out :=
  if (s.hearth h).repHazard then .next (s.preciseFault h 0x03)
  else .next ((s.startIssue h).finish h .seq (some ((s.hearth h).repCount n.toNat)))

end Sys2Proof.Machine
end

