-- ==== Sys2Proof/Machine/Timer.lean ====
section
/-!
DEFINITION. The TMR triggers, the alarm and the release of twait (05 R149, R150).
-/
namespace Sys2Proof.Machine
open Sys2Proof

/-- A result for TMR.r, latency 2 (Table OM-7). -/
def Hearth.tmr (h : Hearth) (v : Word) : Hearth := h.fly .tmr 2 (.one 13 v) false false false

/-- What TMR.tget answers, by T[1:0] (Table OM-7). -/
def State.tgetValue (s : State) (h : Hid) (t : Word) : Word :=
  if fld t 0 2 = 0 then w32 (s.nsCount h)
  else if fld t 0 2 = 1 then w32 (s.epochOf h)
  else if fld t 0 2 = 2 then w32 (s.td / 1000)
  else w32 (s.hearth h).clk

def State.tget (s : State) (h : Hid) (t : Word) : State := s.modHearth h (fun x => x.tmr (s.tgetValue h t))

/-- The alarm fires: FIRED set, ARMED clear, line 4 raised (R150). -/
def Hearth.fire (h : Hearth) : Hearth := ({ h with armed := false } : Hearth).wr 0x084 2 |>.raise 4

/-- TMR.tarm: an alarm already due fires at once (R150). -/
def State.tarm (s : State) (h : Hid) (t : Word) : State :=
  s.modHearth h (fun x =>
    let y := (({ x with armed := true } : Hearth).wr 0x080 t).tmr 0
    if t.toNat ≤ s.nsCount h then y.fire else y)

/-- TMR.tcan. -/
def State.tcan (s : State) (h : Hid) : State :=
  s.modHearth h (fun x => ({ x with armed := false } : Hearth).tmr (if x.armed then 1 else 0))

/-- TGET (Table OM-7). -/
def execTget (h : Hid) (t : Word) (s : State) : Out := s.tracked h (fun s => s.tget h t)
/-- TARM (Table OM-7). -/
def execTarm (h : Hid) (t : Word) (s : State) : Out := s.tracked h (fun s => s.tarm h t)
/-- TCAN (Table OM-7). -/
def execTcan (h : Hid) (t : Word) (s : State) : Out := s.tracked h (fun s => let _ := t; s.tcan h)

/-- TWAIT: released at once if the count has reached T, else the hearth holds (Table OM-7). -/
def execTwait (h : Hid) (t : Word) (s : State) : Out :=
  s.tracked h (fun s =>
    if t.toNat ≤ s.nsCount h then s.modHearth h (fun x => x.tmr (w32 (s.nsCount h)))
    else s.modHearth h (fun x => { x with wait := .twait t (s.epochOf h) }))

/-- TWAIT_RELEASE: the count has reached T, or a tick edge has reached the stack since the hold began (Table OM-7). -/
def execTwaitRelease (h : Hid) (s : State) : Out :=
  match (s.hearth h).wait with
  | .twait t e =>
    if s.stackRuns (stackOf h) && (decide (t.toNat ≤ s.nsCount h) || e != s.epochOf h) then
      .next (s.modHearth h (fun x => ({ x with wait := .none } : Hearth).tmr (w32 (s.nsCount h))))
    else .next s
  | _ => .next s

/-- ALARM_FIRE: an armed alarm whose time the count has reached (R150). -/
def execAlarmFire (h : Hid) (s : State) : Out :=
  .next (s.modHearth h (fun x => if x.armed && s.stackRuns (stackOf h) && decide ((x.rd 0x080).toNat ≤ s.nsCount h) then x.fire else x))

end Sys2Proof.Machine
end

