-- ==== Sys2Proof/Machine/SysReg.lean ====
section
/-!
DEFINITION. The SYS triggers: control-register access of a hearth (05 R151, R152; 07 R185).
-/
namespace Sys2Proof.Machine
open Sys2Proof

/-- The SYS operations in trigger order, ids 0xF0 to 0xF4 (Table OM-8). -/
inductive SysOp where
  | csrr
  | csrw
  | csrs
  | csrc
  | csrx
deriving DecidableEq, Repr

/-- The SYS operation of a trigger id. -/
def sysOps : List SysOp := [.csrr, .csrw, .csrs, .csrc, .csrx]

def SysOp.reads (k : SysOp) : Bool := k == .csrr || k == .csrx
def SysOp.writes (k : SysOp) : Bool := k != .csrr

/-- A SYS operation at offset `o` that writes HSR or ICGML as a command of its own: the masks at the start of the cycle govern
the boundary after it (07 R195). -/
def State.keepMasks (s : State) (h : Hid) (k : SysOp) (o : Nat) : State :=
  if k.writes && (o == 0x004 || o == 0x120) then (s.startIssue h).modHearth h (fun x => { x with mlHeld := true }) else s

/-- The fault of a SYS trigger: a misaligned offset, then a missing right (R151, R185). -/
def State.sysFault (s : State) (h : Hid) (k : SysOp) (t : Word) : Option Byte :=
  let m := (s.hearth h).mode
  let o := fld t 0 11
  if o % 4 ≠ 0 then some 0x05
  else if (k.reads && !csrMayRead m o) || (k.writes && !csrMayWrite m o) then some 0x08
  else none

/-- The value a SYS write puts to the register: csrs and csrc act on RW fields only; a 1 of csrs acts on W1C and W1S
fields, and csrc writes 0 to them (R151). -/
def SysOp.value (k : SysOp) (o : Nat) (old v : Word) : Word :=
  match k with
  | .csrs => ((old ||| v) &&& csrSetMask o) ||| (v &&& csrW1Mask o)
  | .csrc => (old &&& ~~~v) &&& csrSetMask o
  | .csrr => v
  | .csrw => v
  | .csrx => v

/-- A SYS operation performed directly at the register, with O given and the value the register had at the start of
the cycle. -/
def State.sysFireWith (s : State) (h : Hid) (k : SysOp) (t v old : Word) : State :=
  let m := (s.hearth h).mode
  let o := fld t 0 11
  let s1 := if k.reads then
      s.modHearth h (fun x => (x.csrReadFx o).fly .sys 2 (.one 14 old) false false false)
    else s.modHearth h (fun x => x.fly .sys 2 .idle false false false)
  if k.writes then s1.csrWrite h o (k.value o old v) m else s1

def State.sysFire (s : State) (h : Hid) (k : SysOp) (t v : Word) : State :=
  s.sysFireWith h k t v (s.csr h (fld t 0 11) (s.hearth h).mode)

/-- The fault of a SYS trigger is raised; a missing right is a brim fault, which is recorded (R185, R187). -/
def State.sysRaise (s : State) (h : Hid) (k : SysOp) (t : Word) (c : Byte) : State :=
  let s1 := if c = 0x08 then s.modHearth h (fun x => x.brimRecord false (0xF800 + fld t 0 11) k.writes x.mode) else s
  s1.preciseFault h c

/-- A SYS trigger: it stalls while the buffer holds entries to 0xF800 and above, then faults or is performed (R152). -/
def State.sysRow (s : State) (h : Hid) (k : SysOp) (t v : Word) : Out :=
  let s1 := s.stallN h (sbLast 0xF800 (s.hearth h).sb 1)
  s1.tracked h (fun s =>
    match s.sysFault h k t with
    | some c => s.sysRaise h k t c
    | none => (s.keepMasks h k (fld t 0 11)).sysFire h k t v)

/-- CSRR (Table OM-8). -/
def execCsrr (h : Hid) (t : Word) (s : State) : Out := s.sysRow h .csrr t 0
/-- CSRW (Table OM-8). -/
def execCsrw (h : Hid) (t o : Word) (s : State) : Out := s.sysRow h .csrw t o
/-- CSRS (Table OM-8). -/
def execCsrs (h : Hid) (t o : Word) (s : State) : Out := s.sysRow h .csrs t o
/-- CSRC (Table OM-8). -/
def execCsrc (h : Hid) (t o : Word) (s : State) : Out := s.sysRow h .csrc t o
/-- CSRX (Table OM-8). -/
def execCsrx (h : Hid) (t o : Word) (s : State) : Out := s.sysRow h .csrx t o

end Sys2Proof.Machine
end

