-- ==== Sys2Proof/Machine/Words.lean ====
section
/-!
DEFINITION. The instruction word (03 R58 to R71, 05 R153): its moves, its system word, and the decode checks 1 to 6 of
Table HT-4, which depend on the word alone.
-/
namespace Sys2Proof.Machine
open Sys2Proof

/-- Bits of a word. -/
def wfld (w : IWord) (lo n : Nat) : Nat := w.toNat / 2 ^ lo % 2 ^ n

/-- TMPL. -/
def tmpl (w : IWord) : Nat := wfld w 94 2

/-- Where a move takes its value: a source socket, or an immediate. -/
inductive MoveSrc where
  | sock (id : Nat)
  | imm (v : Word)
deriving DecidableEq, Repr

/-- A move: its guard (GINV, GSEL), its source and its destination; `bit16` is bit 16 of a socket move (R63). -/
structure Move where
  ginv  : Bool
  gsel  : Nat
  src   : MoveSrc
  bit16 : Bool
  dst   : Nat
deriving DecidableEq, Repr

/-- A move of 22 bits (Table HT-3). -/
def moveOf (n : Nat) : Move :=
  let simm := decide (n / 2 ^ 17 % 2 = 1)
  { ginv := decide (n / 2 ^ 21 % 2 = 1), gsel := n / 2 ^ 18 % 8
    src := if simm then .imm (wOfInt (sgn 9 (n / 2 ^ 8 % 2 ^ 9))) else .sock (n / 2 ^ 8 % 2 ^ 8)
    bit16 := !simm && decide (n / 2 ^ 16 % 2 = 1), dst := n % 2 ^ 8 }

/-- The long immediate as a move (R65). -/
def longMove (n : Nat) : Move :=
  { ginv := decide (n / 2 ^ 43 % 2 = 1), gsel := n / 2 ^ 40 % 8, src := .imm (w32 n), bit16 := false, dst := n / 2 ^ 32 % 2 ^ 8 }

/-- The moves of a word, in order (Table HT-2). -/
def movesOf (w : IWord) : List Move :=
  let m0 := moveOf (wfld w 66 22)
  let m1 := moveOf (wfld w 44 22)
  let m2 := moveOf (wfld w 22 22)
  if tmpl w = 0 then [m0, m1, m2, moveOf (wfld w 0 22)]
  else if tmpl w = 1 then [m0, m1, longMove (wfld w 0 44)]
  else if tmpl w = 2 then [m0, m1, m2]
  else []

/-- The system words (Table OM-9). -/
inductive SysWord where
  | trap (n : Byte)
  | gate (g : BitVec 6)
  | ret
  | gret
  | halt
  | sleep (w : Bool)
  | fence (scope : FenceScope)
  | fenceI
  | commit
  | epwait
  | sync (scope : SyncScope)
deriving DecidableEq, Repr

/-- The system word of opcode `op` and operand `a`; none where it is undefined (R153). -/
def sysOf (op a : Nat) : Option SysWord :=
  if op = 1 then some (.trap (BitVec.ofNat 8 a))
  else if op = 2 then (if a < 64 then some (.gate (BitVec.ofNat 6 a)) else none)
  else if op = 3 then (if a = 0 then some .ret else none)
  else if op = 4 then (if a = 0 then some .gret else none)
  else if op = 5 then (if a = 0 then some .halt else none)
  else if op = 6 then (if a = 0 then some (.sleep false) else if a = 1 then some (.sleep true) else none)
  else if op = 7 then
    (if a = 0 then some (.fence .both) else if a = 1 then some (.fence .near) else if a = 2 then some (.fence .far) else none)
  else if op = 8 then (if a = 0 then some .fenceI else none)
  else if op = 9 then (if a = 0 then some .commit else none)
  else if op = 10 then (if a = 0 then some .epwait else none)
  else if op = 11 then
    (if a = 0 then some (.sync .stack) else if a = 1 then some (.sync .device)
     else if a = 2 then some (.sync .neighbourhood) else none)
  else none

def sysWordOf (w : IWord) : Option SysWord := if wfld w 0 72 = 0 then sysOf (wfld w 80 8) (wfld w 72 8) else none

/-- The units that triggers belong to (Table HT-5). -/
inductive TUnit where
  | alu (u : Fin 2)
  | shf
  | mul
  | div
  | pred
  | lsu (u : Fin 2)
  | ctl
  | ful
  | mbx
  | tmr
  | sys
deriving DecidableEq, Repr

/-- The unit of a trigger id that has an operation. -/
def unitOf (d : Nat) : Option TUnit :=
  if within 0x40 d 0x5E then some (.alu 0)
  else if within 0x60 d 0x7E then some (.alu 1)
  else if within 0x80 d (0x7F + shfOps.length) then some .shf
  else if within 0x90 d 0x9C then some .mul
  else if within 0xA0 d 0xA3 then some .div
  else if within 0xA4 d 0xAF then some .pred
  else if within 0xB0 d 0xB7 then some (.lsu 0)
  else if within 0xC0 d 0xCE then some (.lsu 1)
  else if within 0xD0 d 0xD6 then some .ctl
  else if within 0xD8 d 0xDB then some .ful
  else if within 0xE0 d 0xE5 then some .mbx
  else if within 0xE8 d 0xEB then some .tmr
  else if within 0xF0 d 0xF4 then some .sys
  else none

/-- A destination for the collision rules: all triggers of a unit count as one; none for p0 and discard (R66). -/
def destKey (d : Nat) : Option (Nat ⊕ TUnit) :=
  if d = 0x20 || d = 0xFF then none else if d < 0x40 then some (.inl d) else (unitOf d).map .inr

/-- Whether two moves write the same destination. -/
def sameDest (a b : Move) : Bool := (destKey a.dst).isSome && destKey a.dst == destKey b.dst

/-- Whether any two moves of a list that satisfy `p` write the same destination. -/
def collide (p : Move → Bool) : List Move → Bool
  | [] => false
  | m :: r => (p m && r.any (fun n => p n && sameDest m n)) || collide p r

def Move.unguarded (m : Move) : Bool := !m.ginv && m.gsel == 0

def Move.srcOk (m : Move) : Bool :=
  match m.src with
  | .sock id => !m.bit16 && decide (id ≤ 0x36)
  | .imm _ => true

def Move.dstOk (m : Move) : Bool := decide (m.dst ≤ 0x34) || m.dst == 0xFF || (unitOf m.dst).isSome

/-- The fault of decode checks 1 to 6 (Table HT-4). -/
def decodeFault (w : IWord) : Option Byte :=
  if tmpl w = 3 && (sysWordOf w).isNone then some 0x01
  else if wfld w 88 6 ≠ 0 then some 0x01
  else if tmpl w = 2 && wfld w 16 6 != 0 then some 0x01
  else if !(movesOf w).all Move.srcOk then some 0x01
  else if !(movesOf w).all Move.dstOk then some 0x01
  else if collide Move.unguarded (movesOf w) then some 0x02
  else none

/-- A word holds a CTL trigger, whatever its guard. -/
def hasCtl (w : IWord) : Bool := (movesOf w).any (fun m => within 0xD0 m.dst 0xD6)

/-- Decode check 7: the placement rules (R88, R98, R101). -/
def Hearth.placeFault (h : Hearth) (w : IWord) : Bool :=
  ((h.pbrV || h.remain ≠ 0) && (decide (2 ≤ tmpl w) || hasCtl w))
    || (tmpl w == 2 && h.repHazard)
    || (h.lastThree && (movesOf w).any (fun m => within 0xD0 m.dst 0xD5))

/-- A word holds a call trigger. -/
def hasCall (w : IWord) : Bool := (movesOf w).any (fun m => m.dst == 0xD2 || m.dst == 0xD3)

end Sys2Proof.Machine
end

