-- ==== Sys2Proof/Machine/Entry.lean ====
section
/-!
DEFINITION. Taking an exception and returning from one (07): the boundary decision, entry, escalation, hearth fault,
TRAP, GATE, RET and GRET.
-/
namespace Sys2Proof.Machine
open Sys2Proof

/-! ## The boundary decision (R184, R194, R195) -/

/-- The priority of a line, ICPRI. -/
def Hearth.pri (h : Hearth) (k : Nat) : Nat := fld (h.rd (0x110 + k / 8 * 4)) (k % 8 * 4) 3

/-- A line is routed to G. -/
def Hearth.lineG (h : Hearth) (k : Nat) : Bool := tb h.icwld k

/-- Whether the masks let line `k` be taken (R184). -/
def Hearth.lineOpen (h : Hearth) (k : Nat) : Bool :=
  let p := h.pri k
  p != 0 &&
    (if isG h.mode then h.lineG k && decide (h.mlDec.toNat < p)
     else if h.lineG k then decide (h.gmlDec.toNat < p)
     else decide (h.mlDec.toNat < p))

/-- Whether line `a` wins over line `b`: priority, then G, then the lower number (R194). -/
def Hearth.lineBeats (h : Hearth) (a b : Nat) : Bool :=
  if h.pri a ≠ h.pri b then decide (h.pri b < h.pri a)
  else if h.lineG a != h.lineG b then h.lineG a else decide (a < b)

/-- The better of line `b` and the lines 0 to 29 of a pending mask that may be taken. -/
def Hearth.betterLine (h : Hearth) (pend : Word) (b : Option Nat) : Option Nat :=
  (List.range 30).foldl (fun (b : Option Nat) k =>
    if tb pend k && tb (h.rd 0x104) k && h.lineOpen k then
      (match b with
       | none => some k
       | some j => if h.lineBeats k j then some k else some j)
    else b) b

/-- The winner among lines 0 to 29 of a pending mask. -/
def Hearth.bestLine (h : Hearth) (pend : Word) : Option Nat := h.betterLine pend none

/-- The interrupt line that R194 chooses. -/
def State.chooseLine (s : State) (h : Hid) : Option Nat :=
  let x := s.hearth h
  if x.nmi31 then some 31
  else if x.nmi30 then some 30
  else x.bestLine (s.icpend h)

/-- The entry chosen at the word boundary (R194). -/
def State.boundary (s : State) (h : Hid) : Option EntryReq :=
  let x := s.hearth h
  if x.fap then some ⟨.far, x.fapCause, 0, x.pc, x.pbrV, x.pbrRem, false⟩
  else (s.chooseLine h).map (fun k => ⟨.line (fin 32 k), 0x20, 0, x.pc, x.pbrV, x.pbrRem, false⟩)

/-- INTERRUPT (R194): at a word boundary of a running hearth, the chosen entry is asked for. -/
def execInterrupt (h : Hid) (s : State) : Out :=
  if (s.hearth h).run == .running && (s.hearth h).entry.isNone && s.stackRuns (stackOf h) then
    match s.boundary h with
    | some e => .next (s.modHearth h (fun x => x.ask e))
    | none => .next s
  else .next s

/-! ## The patch buffer (06 R181) -/

/-- A hearth that is halted or held in reset counts as having its visibility bit set. -/
def State.patchMask (s : State) (k : Fin 8) (m : BitVec 8) : BitVec 8 :=
  (hearthsOf k).foldl (fun m h => if (s.hearth h).run == .running then m else m ||| BitVec.ofNat 8 (2 ^ localIx h)) m

/-- A buffered line is written into the active bank. -/
def State.patchWrite (s : State) (k : Fin 8) (p : PatchLine) : State := s.setBytes (progKey k (s.activeBank k) (p.line * 48)) p.data

/-- Every line of a stack's buffer is written into its bank. -/
def State.patchFlush (s : State) (k : Fin 8) : State :=
  (s.stack k).patch.foldl (fun (s : State) p => s.patchWrite k p) (s.setStack k { s.stack k with patch := [] })

/-- Lines whose mask is all ones retire. -/
def State.patchSettle (s : State) (k : Fin 8) : State :=
  let all := (s.stack k).patch
  let gone := all.filter (fun p => s.patchMask k p.mask == 0xFF)
  gone.foldl (fun (s : State) p => s.patchWrite k p)
    (s.setStack k { s.stack k with patch := all.filter (fun p => s.patchMask k p.mask != 0xFF) })

/-! ## Hearth fault (R192) -/

/-- The hearth halts without a frame; HFR, and the quench of its outputs or of all. -/
def State.hearthFault (s : State) (h : Hid) (cause : Byte) (inEntry : Bool) (pc : BitVec 15) : State :=
  let s1 := s.modHearth h (fun x =>
    { x.wr 0x148 (w32 (cause.toNat + (modeNo x.mode).val * 2 ^ 8 + pc.toNat * 2 ^ 16) ||| bitAt inEntry 10) with
      run := .faulted, entry := none, wait := .none, twHold := none, rep := none })
  (((((s1.fulStop h).unwaitTag (.far h 0)).clearReceiver h).raiseGs 30).sweep).patchSettle (stackOf h)

/-! ## The entry (R197 to R202) -/

/-- Where an entry goes: handler mode, vector or gate entry, the mask and the world-fault flag it sets. -/
structure Target where
  mode : Mode
  pc   : BitVec 15
  ml   : BitVec 3
  wf   : Bool
  gf   : Bool
  sp   : Option Word
  imp  : Bool
deriving DecidableEq, Repr

/-- WF of a mode's world. -/
def Hearth.wf (h : Hearth) (m : Mode) : Bool := if isG m then h.wfg else h.wfp

/-- Vector `v` of the world of a mode. -/
def Hearth.vector (h : Hearth) (m : Mode) (v : Nat) : BitVec 15 :=
  BitVec.ofNat 15 ((h.rd (if isG m then 0x128 else 0x124)).toNat + 4 * v)

/-- A fault of level `l` at vector `v`: entry, world fault, or hearth fault (Table WG-3). -/
def Hearth.dispatch (h : Hearth) (l v : Nat) (imp : Bool) : Option Target :=
  let m := supOf h.mode
  if h.wf m then none
  else if h.ml.toNat < l then some ⟨m, h.vector m v, BitVec.ofNat 3 l, false, false, none, imp⟩
  else some ⟨m, h.vector m 0, 7, true, false, none, imp⟩

/-- The target of an entry (Table WG-2); none for a hearth fault. -/
def Hearth.target (h : Hearth) (e : EntryReq) : Option Target :=
  match e.kind with
  | .fault l => h.dispatch l 1 false
  | .far => h.dispatch 5 2 true
  | .trap => some ⟨supOf h.mode, h.vector (supOf h.mode) 3, h.ml, false, false, none, false⟩
  | .gate en m sp => some ⟨m, en, h.ml, false, true, if sp ≠ 0 && m != h.mode then some sp else none, false⟩
  | .line k =>
    let m : Mode := if h.lineG k.val then .gs else .ps
    some ⟨m, h.vector m (8 + k.val), if 30 ≤ k.val then 7 else BitVec.ofNat 3 (h.pri k.val), false, false, none, false⟩

/-- The offset of a world's frame pointer register, and of its limit. -/
def efp (m : Mode) : Nat := if isG m then 0x12C else 0x01C
def eflim (m : Mode) : Nat := if isG m then 0x134 else 0x130

/-- The frame slot B of a world. -/
def Hearth.slot (h : Hearth) (m : Mode) : Nat := fld (h.rd (efp m)) 7 8

/-- No room for the frame (R199). -/
def Hearth.noRoom (h : Hearth) (m : Mode) : Bool := decide (h.slot m < fld (h.rd (eflim m)) 7 8 + 1)

/-- An interrupt entry goes to what R194 would choose over its line when its target is fixed: a far failure that has arrived, then
line 31 or 30, then a line that beats it (R198). That a far failure counts among the requests is DEDUCED (log entry 26). -/
def State.retarget (s : State) (h : Hid) (e : EntryReq) : EntryReq :=
  let x := s.hearth h
  match e.kind with
  | .line k =>
    if x.fap then { e with kind := .far, cause := x.fapCause }
    else if x.nmi31 then { e with kind := .line 31 }
    else if k.val = 31 || k.val = 30 then e
    else if x.nmi30 then { e with kind := .line 30 }
    else { e with kind := .line ((x.betterLine (s.icpend h) (some k.val)).elim k (fun j => fin 32 j)) }
  | _ => e

/-- One operation in flight completes into the record: its unit, its reveal count and its results (R201). -/
def Hearth.landOne (h : Hearth) (f : Flight) : Hearth × (FUnit × Nat × Word × Word) :=
  let y := h.land f
  let v := match f.unit with
    | .mul => (y.rs[3], y.rs[4])
    | .div => (y.rs[5], y.rs[6])
    | .lsu0 => (y.rs[8], 0)
    | .lsu1 => (y.rs[9], 0)
    | .tmr => (y.rs[13], 0)
    | .sys => (y.rs[14], 0)
    | _ => (0, 0)
  (y, (f.unit, f.nom - h.ic, v.1, v.2))

/-- All operations in flight complete, each at its due stage (Table WG-6), and what each leaves in the record, in the
order of their triggers. -/
def Hearth.landAll (h : Hearth) : Hearth × List (FUnit × Nat × Word × Word) :=
  let fs := h.flights.filter (fun f => f.kind != .idle)
  let r := fs.foldl (fun (r : Hearth × List (FUnit × Nat × Word × Word)) f =>
    ((r.1.landOne f).1, r.2 ++ [(r.1.landOne f).2])) (h, [])
  let z := (List.range 32).foldl (fun (y : Hearth) k => (fs.filter (fun f => f.due - h.ic == k)).foldl Hearth.land y) h
  ({ z with flights := [] }, r.2)

/-- The slots of the record (Table WG-8): first slot of a unit, its slots, its first word, words per slot. -/
def recUnits : List (FUnit × Nat × Nat × Nat × Nat) :=
  [(.mul, 0, 2, 4, 2), (.div, 2, 1, 8, 2), (.lsu0, 3, 5, 10, 1), (.lsu1, 8, 5, 15, 1), (.tmr, 13, 1, 20, 1), (.sys, 14, 1, 21, 1)]

/-- The record's words: a list of (word index, value), and the tag bytes. -/
def recordCells (rs : List (FUnit × Nat × Word × Word)) : List (Nat × Word) :=
  recUnits.flatMap (fun (u, _, n, w, k) =>
    let xs := (rs.filter (fun r => r.1 == u)).take n
    (xs.mapIdx (fun i r => if k = 2 then [(w + 2 * i, r.2.2.1), (w + 2 * i + 1, r.2.2.2)] else [(w + i, r.2.2.1)])).flatten)

def recordTags (rs : List (FUnit × Nat × Word × Word)) : List (Nat × Nat) :=
  recUnits.flatMap (fun (u, b, n, _, _) =>
    ((rs.filter (fun r => r.1 == u)).take n).mapIdx (fun i r => (b + i, r.2.1 % 32)))

/-- The 32 words of the pipeline record (Table WG-8). -/
def recordWords (rs : List (FUnit × Nat × Word × Word)) : List Word :=
  (List.range 32).map (fun i =>
    if i < 4 then w32 ((recordTags rs).foldl (fun n t => if t.1 / 4 = i then n + t.2 * 2 ^ (8 * (t.1 % 4)) else n) 0)
    else ((recordCells rs).find? (fun c => c.1 == i)).elim 0 (fun c => c.2))

/-- The 32 words of the frame (Table WG-7): `a` is the hearth at entry cycle 1, `z` after its operations have landed. -/
def frameWords (a z : Hearth) (e : EntryReq) (t : Target) : List Word :=
  [w32 (e.pc.toNat + fld a.rs[10] 0 15 * 2 ^ 16) ||| bitAt t.gf 15 ||| bitAt (tb a.rs[7] 0) 31,
   (z.hsr &&& 0xFFF) ||| bitAt a.lsu1Pend 12 ||| bitAt a.mbxPend 13 ||| bitAt a.fulPend 14 ||| bitAt t.wf 15
     ||| w32 (z.acc.toNat / 2 ^ 32 * 2 ^ 16),
   w32 (a.pbrTgt.toNat + e.pbrRem.toNat * 2 ^ 15 + fld (a.opnd 0x32) 0 14 * 2 ^ 18) ||| bitAt e.pbrV 17,
   a.lps, a.lpe, w32 (fld a.lpc 0 16 + fld (a.opnd 0x2F) 0 15 * 2 ^ 16), a.lpa, a.repc, w32 z.acc.toNat,
   a.opnd 0x28, a.opnd 0x29, a.opnd 0x2A, a.opnd 0x2B, a.opnd 0x2D, a.opnd 0x2E, a.opnd 0x30, a.opnd 0x31, a.opnd 0x33, a.opnd 0x34,
   a.rs[0], a.rs[1], a.rs[2], a.rs[3], a.rs[4], a.rs[5], a.rs[6], a.rs[8],
   if a.lsu1Pend then 0 else a.rs[9], if a.fulPend then 0 else a.rs[11], if a.mbxPend then 0 else a.rs[12], a.rs[13], a.rs[14]]

/-- Words written from key `k` upward. -/
def State.wrWords (s : State) (k : Nat) (ws : List Word) : State := s.setBytes k (ws.flatMap (fun w => leBytes 4 w.toNat))

/-- The syndrome word ESR or GESR. -/
def syndrome (e : EntryReq) (imp : Bool) : Word :=
  w32 (e.cause.toNat + e.info.toNat * 2 ^ 8) ||| bitAt e.ds 16 ||| bitAt imp 17

/-- The state of the hearth as its handler begins (entry cycle 28; FAP cleared, R143). -/
def Hearth.handler (h : Hearth) (e : EntryReq) (t : Target) : Hearth :=
  let b := h.slot t.mode
  let h1 := h.wr (efp t.mode) (w32 ((b + 254) % 256 * 128))
  let h2 := if isG t.mode then (h1.wr 0x138 (w32 e.pc.toNat)).wr 0x13C (syndrome e t.imp)
    else (h1.wr 0x014 (w32 e.pc.toNat)).wr 0x018 (syndrome e t.imp)
  let h3 : Hearth :=
    { h2 with
      mode := t.mode, ml := t.ml, fap := false, pc := t.pc, pbrV := false, pbrRem := 0, pbrTgt := 0, pbrCall := false
      lpa := 0, repc := putF h2.repc 16 16 0, rep := none, btbOut := [], wait := .none, twHold := none, entry := none
      pbrKeep := if e.pbrV then (e.pc, h.pbrTgt, h.pbrCall) :: h.pbrKeep.filter (fun k => !(k.1 == e.pc && k.2.1 == h.pbrTgt)) else h.pbrKeep
      mlDec := t.ml, gmlDec := BitVec.ofNat 3 (fld (h2.rd 0x120) 0 3)
      wfp := h2.wfp || (t.wf && !isG t.mode), wfg := h2.wfg || (t.wf && isG t.mode) }
  let h4 := match t.sp with
    | some v => h3.setSp t.mode v
    | none => h3
  match e.kind with
  | .line k =>
    { h4 with line := BitVec.ofNat 5 k.val, lv := true, nmi30 := h4.nmi30 && k != 30, nmi31 := h4.nmi31 && k != 31 }
  | _ => h4

/-- Entry cycle 1 begins: a SLEEP that ends has taken its 4 cycles (Table OM-9). -/
def State.entryBegin (s : State) (h : Hid) : State :=
  let s1 := s.modHearth h (fun x => { x with sb := x.sb ++ x.sbNew, sbNew := [] })
  match (s.hearth h).wait with
  | .sleep _ => (s1.modHearth h (fun x => { x with wait := .none })).extraCycles h 4
  | _ => s1

/-- Entry cycles 1 to 23: the buffer drains and the operations in flight complete. DVZ of a division fault is set at the end of the
word's cycle, which is entry cycle 1: a drain of that cycle does not clear it (04 R110, R111, R129). -/
def State.entryDrain (s : State) (h : Hid) (e : EntryReq) : State × List (FUnit × Nat × Word × Word) :=
  let s1 := s.drain h
  let s2 := if e.cause = 0x06 then s1.modHearth h (fun x => { x with dvz := true }) else s1
  let s3 := s2.drainN h ((s.hearth h).sb.length - 1)
  let r := (s3.hearth h).landAll
  (s3.setHearth h r.1, r.2)

/-- The entry of a hearth (R197 to R202): buffer drained, operations landed, the target fixed, frame and record saved, handler
begun; and whether it ends in a hearth fault. -/
def State.enterEnd (s : State) (h : Hid) (e0 : EntryReq) : State × Bool :=
  let s1 := s.entryBegin h
  let a := s1.hearth h
  let r := s1.entryDrain h e0
  let s2 := r.1
  let e := s2.retarget h e0
  let z := s2.hearth h
  match z.target e with
  | none => (s2.hearthFault h e.cause false e.pc, true)
  | some t =>
    if z.noRoom t.mode then (s2.hearthFault h 0xFF true e.pc, true)
    else
      let b := z.slot t.mode
      let s3 := (s2.wrWords (ldmKey h (b * 128)) (frameWords a z e t)).wrWords (ldmKey h ((b - 1) * 128)) (recordWords r.2)
      ((s3.setHearth h { (z.handler e t) with clk := z.clk + 30 }).unwaitTag (.far h 0), false)

def State.enter (s : State) (h : Hid) (e : EntryReq) : State := (s.enterEnd h e).1

/-- ENTRY (R197): the entry asked for is performed. -/
def execEntry (h : Hid) (s : State) : Out :=
  match (s.hearth h).entry with
  | some e => .next (if s.stackRuns (stackOf h) then s.enter h e else s)
  | none => .next s

/-- HEARTH_FAULT (R191, R192, R199): an entry that escalates, or finds no room for its frame. -/
def execHearthFault (h : Hid) (s : State) : Out :=
  match (s.hearth h).entry with
  | none => .next s
  | some e => if (s.enterEnd h e).2 && s.stackRuns (stackOf h) then .next (s.enter h e) else .next s

/-! ## TRAP and GATE (R208 to R211) -/

/-- A system word may not stand in a delay slot or be repeated (R88, R101). -/
def Hearth.sysHazard (h : Hearth) : Bool := h.pbrV || h.remain ≠ 0

/-- A system word reaches its issue unless a control hazard forbids it. -/
def State.sysWordRow (s : State) (h : Hid) (f : State → State) : Out :=
  if (s.hearth h).sysHazard then .next (s.preciseFault h 0x03) else .next (f s)

/-- The word completes, and an entry of kind `k` follows with the PC that R96 selects (Table WG-9); entry cycle 1 is the cycle
after the word (R197). -/
def State.finishEnter (s : State) (h : Hid) (k : EntryKind) (cause info : Byte) : State :=
  (s.finishNow h .seq none).modHearth h (fun x => { x with entry := some ⟨k, cause, info, x.pc, false, 0, false⟩ })

/-- TRAP (R208). -/
def State.trap (s : State) (h : Hid) (n : Byte) : State := (s.startIssue h).finishEnter h .trap 0x10 n

def execTrap (h : Hid) (n : BitVec 8) (s : State) : Out := s.sysWordRow h (fun s => s.trap h n)

/-- Word `i` of gate descriptor `g` (R209). -/
def State.gateWord (s : State) (g : BitVec 6) (i : Nat) : Word := s.rd32 (0x1200F800 + 32 * g.toNat + 4 * i)

/-- A check word has no reserved bit set (bit [3] is reserved where KIND is range) and a LARG within 1 to NARG (R210). -/
def gateArgOk (nargs : Nat) (w : Word) : Bool :=
  let k := fld w 0 2
  if k = 0 then w == 0
  else if k = 1 then fld w 3 1 == 0
  else if k = 2 then fld w 10 22 == 0 && within 1 (fld w 4 3) nargs
  else false

/-- The descriptor is valid (R210 step 1). -/
def State.gateValid (s : State) (g : BitVec 6) : Bool :=
  let w := s.gateWord g 0
  tb w 31 && (fld w 16 2 == 1 || fld w 16 2 == 3) && fld w 24 3 != 7 && (w &&& 0x780C8000) == 0
    && (List.range 6).all (fun k => gateArgOk (fld w 24 3) (s.gateWord g (2 + k)))

/-- CMASK allows the caller (R210 step 2). -/
def gateCaller (w : Word) (m : Mode) : Bool := tb w (20 + (modeNo m).val) && !(fld w 16 2 == 1 && isG m)

/-- The range check of an argument. -/
def gateRange (w v : Word) : Bool :=
  if tb w 2 then decide (sgn 14 (fld w 4 14) ≤ v.toInt) && decide (v.toInt ≤ sgn 14 (fld w 18 14))
  else decide (fld w 4 14 ≤ v.toNat) && decide (v.toNat ≤ fld w 18 14)

/-- The window check of an argument whose length is in g[LARG]. -/
def Hearth.gateWindow (h : Hearth) (w : Word) (v : Word) : Bool :=
  let n := (h.reg (fin 32 (fld w 4 3))).toNat * 2 ^ fld w 7 3
  let a := v.toNat
  n == 0 ||
    (if tb w 2 then decide (a + n ≤ 2 ^ 32) && h.brimOk true a (a + n - 1) true (tb w 3) h.mode
     else decide (a < 2 ^ 16) && decide (a + n ≤ 0xF000) && h.brimOk false a (a + n - 1) true (tb w 3) h.mode)

/-- The first failing check of a gate call, as (ARG, WHY) of GCHK (R210). -/
def State.gateCheck (s : State) (h : Hid) (g : BitVec 6) : Option (Nat × Nat) :=
  let x := s.hearth h
  let w := s.gateWord g 0
  if !s.gateValid g then some (0, 0)
  else if !gateCaller w x.mode then some (0, 1)
  else ((List.range (fld w 24 3)).map (· + 1)).findSome? (fun k =>
    let c := s.gateWord g (1 + k)
    let v := x.reg (fin 32 k)
    if fld c 0 2 = 1 then (if gateRange c v then none else some (k, 2))
    else if fld c 0 2 = 2 then (if x.gateWindow c v then none else some (k, 3))
    else none)

/-- GATE g: its checks, then the gate entry or the gate argument check fault (R210, R211). -/
def State.gate (s : State) (h : Hid) (g : BitVec 6) : State :=
  match s.gateCheck h g with
  | some (a, why) =>
    s.modHearth h (fun x =>
      (x.wr 0x144 (w32 (g.toNat + a * 2 ^ 6 + why * 2 ^ 9))).precise 7 0x12 (BitVec.ofNat 8 g.toNat))
  | none =>
    let w := s.gateWord g 0
    (s.startIssue h).finishEnter h (.gate (BitVec.ofNat 15 (fld w 0 15)) (modeOf (fld w 16 2)) (s.gateWord g 1)) 0x11 (BitVec.ofNat 8 g.toNat)

/-- GATE (R210). -/
def execGate (h : Hid) (g : BitVec 6) (s : State) : Out := s.sysWordRow h (fun s => s.gate h g)

/-! ## RET and GRET (R202, R204, R212, R213) -/

/-- Whether a return to mode `m` with frame bit `gf` is allowed in the current mode (Table WG-11). -/
def returnOk (cur : Mode) (gret gf : Bool) (m : Mode) : Bool :=
  gret == gf &&
    (match cur with
     | .ps => m == .pu || m == .ps
     | .gs => true
     | .pu => false
     | .gu => false)

/-- Operations of a saved record come back into flight, slot by slot: the slot becomes visible to resumed word R. -/
def recordFlights (ic : Nat) (rec : Nat → Word) : List Flight :=
  recUnits.flatMap (fun (u, b, n, w, k) =>
    ((List.range n).filterMap (fun i =>
      let r := fld (rec ((b + i) / 4)) (8 * ((b + i) % 4)) 5
      if r = 0 then none
      else some (if k = 2 then
          (⟨u, ic + r, ic + r, .two (if u == .mul then 3 else 5) (if u == .mul then 4 else 6) (rec (w + 2 * i)) (rec (w + 2 * i + 1)), false, false, false⟩ : Flight)
        else ⟨u, ic + r, ic + r, .one (match u with
          | .lsu0 => 8
          | .lsu1 => 9
          | .tmr => 13
          | _ => 14) (rec (w + i)), false, false, false⟩))))

/-- The hearth that a frame restores; flagged sockets keep their value and pending state (R202). -/
def Hearth.restore (h : Hearth) (f rec : Nat → Word) (call : Bool) : Hearth :=
  let m := modeOf (fld (f 1) 4 2)
  let keep := fun (bit : Nat) (sock : Fin 15) (v : Word) => if tb (f 1) bit then h.rs[sock] else v
  { h with
    pc := BitVec.ofNat 15 (fld (f 0) 0 15), mode := m, ml := BitVec.ofNat 3 (fld (f 1) 0 3)
    sov := tb (f 1) 8, dov := tb (f 1) 9, dvz := tb (f 1) 10
    acc := BitVec.ofNat 48 (fld (f 1) 16 16 * 2 ^ 32 + (f 8).toNat)
    pbrTgt := BitVec.ofNat 15 (fld (f 2) 0 15), pbrRem := BitVec.ofNat 2 (fld (f 2) 15 2), pbrV := tb (f 2) 17, pbrCall := call
    lps := f 3 &&& 0x7FFF7FFF, lpe := f 4 &&& 0x7FFF7FFF, lpc := w32 (fld (f 5) 0 16), lpa := f 6, repc := f 7
    op := #v[f 9, f 10, f 11, f 12, h.op[4], f 13, f 14, w32 (fld (f 5) 16 15), f 15, f 16, w32 (fld (f 2) 18 14), f 17, f 18]
    rs := #v[f 19, f 20, f 21, f 22, f 23, f 24, f 25, bitAt (tb (f 0) 31) 0, f 26, keep 12 9 (f 27), w32 (fld (f 0) 16 15),
             keep 14 11 (f 28), keep 13 12 (f 29), f 30, f 31]
    flights := recordFlights h.ic rec, rep := none, wait := .none, twHold := none, btbOut := []
    mlDec := BitVec.ofNat 3 (fld (f 1) 0 3), gmlDec := BitVec.ofNat 3 (fld (h.rd 0x120) 0 3)
    wfp := h.wfp && !(tb (f 1) 15 && !isG h.mode), wfg := h.wfg && !(tb (f 1) 15 && isG h.mode) }

/-- Whether the pending transfer that a frame restores was a call, which ends no loop level (03 R97). The frame has no bit for it:
the hearth keeps it from the entry that saved this PC and target, and for a frame it did not save it takes any call trigger in
the word before the slots for one (DEDUCED, log entry 27). -/
def State.savedCall (s : State) (h : Hid) (pc tgt : BitVec 15) (rem : Nat) : Bool :=
  match (s.hearth h).pbrKeep.find? (fun k => k.1 == pc && k.2.1 == tgt) with
  | some k => k.2.2
  | none => hasCall (s.fetch h (pc.toNat - (if rem = 2 then 1 else 2)))

/-- RET or GRET: the checks, then the restored hearth after 20 cycles. -/
def State.ret (s0 : State) (h : Hid) (gret : Bool) : State :=
  let s := s0.startIssue h
  let x0 := s.hearth h
  let b := x0.slot x0.mode
  let s1 := s.drainN h x0.sb.length
  let f := fun i => s1.rd32 (ldmKey h ((b + 2) * 128 + 4 * i))
  let rec' := fun i => s1.rd32 (ldmKey h ((b + 1) * 128 + 4 * i))
  if 0xFF < b + 2 || !returnOk x0.mode gret (tb (f 0) 15) (modeOf (fld (f 1) 4 2)) then s1.preciseFault h 0x07
  else
    let call := s1.savedCall h (BitVec.ofNat 15 (fld (f 0) 0 15)) (BitVec.ofNat 15 (fld (f 2) 0 15)) (fld (f 2) 15 2)
    s1.modHearth h (fun x =>
      let y := (x.wr (efp x.mode) (w32 ((b + 2) * 128))).restore f rec' (tb (f 2) 17 && call)
      { y with clk := y.clk + 20 })

/-- RET (R212). -/
def execRet (h : Hid) (s : State) : Out := s.sysWordRow h (fun s => s.ret h false)

/-- GRET (R212). -/
def execGret (h : Hid) (s : State) : Out := s.sysWordRow h (fun s => s.ret h true)

end Sys2Proof.Machine
end

