-- ==== Sys2Proof/Machine/Issue.lean ====
section
/-!
DEFINITION. The issue of words (03 R50 to R56, R66 to R69, R99 to R103; 05 R153 to R155; 06 R159, R169, R170): a cycle of
a hearth, the moves and triggers of a word, and the system words.
-/
namespace Sys2Proof.Machine
open Sys2Proof

/-! ## System words (Table OM-9) -/

/-- The conditions of a fence at the end of this cycle (06 R166, R169). -/
def Hearth.fenceOk (h : Hearth) (scope : FenceScope) : Bool :=
  let near := decide (h.sb.length ≤ 1)
  match scope with
  | .near => near
  | .far => h.far.isEmpty
  | .both => near && h.far.isEmpty

/-- FENCE: held unissued until its conditions hold at the end of the cycle (R169). -/
def State.fence (s : State) (h : Hid) (scope : FenceScope) : State :=
  if (s.hearth h).fenceOk scope then (s.startIssue h).finish h .seq else s.stallCycle h false

/-- HALT: the hearth completes the word and stops (Table OM-9; 08 R248). -/
def State.halt (s : State) (h : Hid) : State :=
  ((((s.startIssue h).finish h .seq).modHearth h (fun x => { x with run := .halted })).fulStop h).patchSettle (stackOf h)

/-- SLEEP: one cycle if a wake condition holds, else a wait (Table OM-9). -/
def State.sleep (s0 : State) (h : Hid) (w : Bool) : State :=
  let s := s0.startIssue h
  let x := s.hearth h
  let s1 := s.finish h .seq
  if (s.boundary h).isSome || (w && x.doorbell != 0) then s1 else s1.modHearth h (fun x => { x with wait := .sleep w })

/-- FENCE.I: 12 cycles, the supply of the next word included (Table HT-9); invalidation, and the hearth's bit in every patched line (03 R85; 06 R181). -/
def State.fenceI (s : State) (h : Hid) : State :=
  let s1 := (((s.startIssue h).finishNow h .seq none).extraCycles h 11).modHearth h Hearth.invalidate
  let k := stackOf h
  (s1.setStack k { s1.stack k with
    patch := (s1.stack k).patch.map (fun p => { p with mask := p.mask ||| BitVec.ofNat 8 (2 ^ localIx h) }) }).patchSettle k

/-- A COMMIT of this epoch has been reported: accepted (EPST.CMT), or its acceptance is on the way (R155). -/
def Hearth.committed (h : Hearth) : Bool := tb (h.rd 0x050) 25 || (h.cmtPend && !h.cmtEdge)

/-- COMMIT: a fence of both scopes, then the report and the wait for its acceptance (R155; 10 R276); a
second COMMIT in an epoch records nothing. -/
def State.commit (s : State) (h : Hid) : State :=
  if (s.hearth h).fenceOk .both then
    ((s.startIssue h).finish h .seq).modHearth h (fun x =>
      if (s.hearth h).committed then { x with wait := .commit }
      else { x with wait := .commit, report := some (s.epochOf h), cmtPend := true, cmtEdge := false })
  else s.stallCycle h false

/-- EWT holds a target. -/
def Hearth.ewtV (h : Hearth) : Bool := tb (h.rd 0x04C) 31

/-- The epoch number has reached EWT.E, as far as its 24 bits tell (R154). -/
def State.ewtReached (s : State) (h : Hid) : Bool :=
  decide ((s.epochOf h % 2 ^ 24 + 2 ^ 24 - fld ((s.hearth h).rd 0x04C) 0 24) % 2 ^ 24 < 2 ^ 23)

/-- The end of EPWAIT: EWT.V cleared, and 2 cycles (R154, Table OM-9); after a reblock the next word is RESUME of the new
entry table, with 3 cycles more (16 R446). -/
def State.epwaitEnd (s : State) (h : Hid) : State :=
  let s1 := ((s.modHearth h (fun x => ({ x with wait := .none } : Hearth).wr 0x04C (x.rd 0x04C &&& 0x7FFFFFFF))).finish h .seq).extraCycles h 1
  if (s.hearth h).resume then
    (s1.modHearth h (fun x => { x with pc := s.entResume s.blksel h, resume := false })).extraCycles h 3
  else s1

/-- EPWAIT: a target is latched unless one is held, and the hearth waits (R154). -/
def State.epwait (s0 : State) (h : Hid) : State :=
  let s := s0.startIssue h
  let s1 := if (s.hearth h).ewtV then s
    else s.modHearth h (fun x => x.wr 0x04C (w32 ((s.epochOf h + 1) % 2 ^ 24) ||| bitAt true 31))
  if s1.ewtReached h then s1.epwaitEnd h
  else (s1.waitCycle h).modHearth h (fun x => { x with wait := .epwait })

/-- The cycles of a device barrier at the stack's point, Bd (08 Table FE-10). -/
def State.bd (s : State) (h : Hid) : Nat :=
  let op := fld (s.reg 0x40010008) (4 * (stackOf h).val) 3
  if op = 5 then 23 else if op = 4 then 21 else if op = 3 then 19 else if op = 2 then 16 else if op = 1 then 14 else 12

/-- The barrier time of a scope (08 R242). -/
def State.barrierTime (s : State) (h : Hid) (scope : SyncScope) : Nat := if scope = .stack then 4 else s.bd h

def State.waitN (s : State) (h : Hid) : Nat → State
  | 0 => s
  | n + 1 => (s.waitCycle h).waitN h n

/-- SYNC: a participant arrives and waits; another hearth spends the barrier time (08 R241, R242). -/
def State.syncWord (s : State) (h : Hid) (scope : SyncScope) : State :=
  let s1 := (s.startIssue h).finish h .seq
  if (s.hearth h).takesPart 0 scope then s1.modHearth h (fun x => { x with arr0 := some scope, arrLost := false, wait := .sync scope })
  else s1.waitN h (s.barrierTime h scope)

/-- HALT (R153). -/
def execHalt (h : Hid) (s : State) : Out := s.sysWordRow h (fun s => s.halt h)
/-- SLEEP (R153). -/
def execSleep (h : Hid) (w : Bool) (s : State) : Out := s.sysWordRow h (fun s => s.sleep h w)
/-- FENCE (06 R169). -/
def execFence (h : Hid) (scope : FenceScope) (s : State) : Out := s.sysWordRow h (fun s => s.fence h scope)
/-- FENCE_I (03 R85). -/
def execFenceI (h : Hid) (s : State) : Out := s.sysWordRow h (fun s => s.fenceI h)
/-- COMMIT (R155). -/
def execCommit (h : Hid) (s : State) : Out := s.sysWordRow h (fun s => s.commit h)
/-- EPWAIT (R154). -/
def execEpwait (h : Hid) (s : State) : Out := s.sysWordRow h (fun s => s.epwait h)
/-- SYNC (08 R241). -/
def execSync (h : Hid) (scope : SyncScope) (s : State) : Out := s.sysWordRow h (fun s => s.syncWord h scope)

/-- DEBUG_RESUME (03 R85, R153; 08 R248): a hearth halted by HALT goes on, with its supply invalidated. -/
def execDebugResume (h : Hid) (s : State) : Out :=
  if (s.hearth h).run = .halted then
    .next (s.modHearth h (fun x => ({ x with run := .running } : Hearth).invalidate.fulResume))
  else .next s

/-- A system word at its issue. -/
def State.sysWord (s : State) (h : Hid) : SysWord → State
  | .trap n => s.trap h n
  | .gate g => s.gate h g
  | .ret => s.ret h false
  | .gret => s.ret h true
  | .halt => s.halt h
  | .sleep w => s.sleep h w
  | .fence sc => s.fence h sc
  | .fenceI => s.fenceI h
  | .commit => s.commit h
  | .epwait => s.epwait h
  | .sync sc => s.syncWord h sc

/-! ## The moves of a word -/

/-- The guard of a move reads 1 (R63). -/
def Hearth.active (h : Hearth) (m : Move) : Bool := h.pred m.gsel != m.ginv

/-- The value of a move (R64, R65, Table HT-6). -/
def Hearth.moveVal (h : Hearth) (m : Move) : Word :=
  match m.src with
  | .sock id => h.src id
  | .imm v => v

/-- A move reads or writes a pending register or socket (05 R141, R146; 08 R236). -/
def Hearth.movePend (h : Hearth) (m : Move) : Bool :=
  (match m.src with
   | .sock id => h.srcPend id
   | .imm _ => false)
  || (decide (m.dst < 0x20) && h.regPend (fin 32 m.dst))

/-- A move to a register, a predicate or an operand socket; MUL.a takes effect at the end of the cycle (04 R121). -/
def Hearth.write (h : Hearth) (d : Nat) (v : Word) : Hearth :=
  if d < 0x20 then h.setReg (fin 32 d) v
  else if d < 0x28 then h.setPred (d - 0x20) v
  else if d = 0x2C then { h with accNew := some v }
  else if d ≤ 0x34 then { h with op := h.op.set (fin 13 (d - 0x28)) v }
  else h

/-- The triggers of the active moves, in the order of their ids: unit, id and T. -/
def triggersOf (h : Hearth) (ms : List Move) : List (TUnit × Nat × Word) :=
  (List.range 0xB5).filterMap (fun i =>
    (ms.find? (fun m => m.dst == 0x40 + i)).bind (fun m => (unitOf m.dst).map (fun u => (u, m.dst, h.moveVal m))))

/-- The far operations in trigger order, ids 0xC8 to 0xCE (Table OM-3). -/
def farOps : List FarKind := [.ld, .ldhu, .st, .sth, .add, .addsH2, .swap]

def nearOf (d : Nat) : NearOp := nearOps.getD (d % 8) ⟨4, false, false⟩
def farOf (d : Nat) : FarKind := farOps.getD (d - 0xC8) .ld
def mbxOf (d : Nat) : MbxKind := mbxOps.getD (d - 0xE0) .post
def fulOf (d : Nat) : FulOp := fulOps.getD (d - 0xD8) .run
def sysOpOf (d : Nat) : SysOp := sysOps.getD (d - 0xF0) .csrr

/-! ## Stalls of a word (06 Table SK-3) -/

/-- Entries of the tracking table a trigger needs (Table SK-4). -/
def needs (t : TUnit × Nat × Word) : Nat :=
  match t.1 with
  | .mul => 1
  | .div => 1
  | .lsu _ => if t.2.1 < 0xC8 && (nearOf t.2.1).store then 0 else 1
  | .tmr => 1
  | .sys => 1
  | .mbx => 1
  | .ful => 1
  | .alu _ => 0
  | .shf => 0
  | .pred => 0
  | .ctl => 0

/-- A near store among the triggers. -/
def isNearStore (t : TUnit × Nat × Word) : Bool :=
  match t.1 with
  | .lsu _ => decide (t.2.1 < 0xC8) && (nearOf t.2.1).store
  | _ => false

/-- A remote far access among the triggers. -/
def State.isRemote (s : State) (h : Hid) (t : TUnit × Nat × Word) : Bool :=
  decide (t.1 = .lsu 1) && decide (0xC8 ≤ t.2.1) && !s.isLocal (s.hearth h).farNode

/-- A trigger is held by a cause of its own. -/
def State.trigHeld (s : State) (h : Hid) (t : TUnit × Nat × Word) : Bool :=
  let x := s.hearth h
  match t.1 with
  | .lsu u =>
    if 0xC8 ≤ t.2.1 then x.farHeld (farOf t.2.1)
    else x.nearHeld u (nearOf t.2.1) || s.nearStall h (nearOf t.2.1) t.2.2 != 0
  | .mbx => x.mbxPend || ((mbxOf t.2.1).ldm && !x.sb.isEmpty)
  | .ful => x.fulHeld (tb t.2.2 7)
  | .sys => sbLast 0xF800 x.sb 1 != 0
  | .alu _ => false
  | .shf => false
  | .mul => false
  | .div => false
  | .pred => false
  | .ctl => false
  | .tmr => false

/-- The word is held by the divider (04 R128). -/
def Hearth.divHeld (h : Hearth) (ts : List (TUnit × Nat × Word)) : Bool := h.divBusy && ts.any (fun t => t.1 == .div)

/-- The word is held by a cause other than the divider and the tags. -/
def State.wordHeld (s : State) (h : Hid) (ts : List (TUnit × Nat × Word)) : Bool :=
  let x := s.hearth h
  ts.any (fun t => s.trigHeld h t)
    || decide (8 < x.sb.length - 1 + (ts.filter isNearStore).length)
    || decide (48 < x.ottUsed + ts.foldl (fun n t => n + needs t) 0)

/-- The word needs a link tag and finds none (06 R172). -/
def State.tagHeld (s : State) (h : Hid) (ts : List (TUnit × Nat × Word)) : Bool :=
  ts.any (fun t => s.isRemote h t) && (s.takeTag (.far h 0)).isNone

/-- The word holds a twait whose time has not come (05 R149); the hold ends with a tick edge. -/
def State.twaitHeld (s : State) (h : Hid) (ts : List (TUnit × Nat × Word)) : Bool :=
  ts.any (fun t => t.2.1 == 0xEB && decide (s.nsCount h < t.2.2.toNat)) &&
    (match (s.hearth h).twHold with
     | none => true
     | some e => e == s.epochOf h)

/-! ## Precise faults of a word's triggers -/

/-- The precise fault of a trigger at its issue. -/
def State.trigFault (s : State) (h : Hid) (t : TUnit × Nat × Word) : Option Byte :=
  let x := s.hearth h
  match t.1 with
  | .lsu _ => if 0xC8 ≤ t.2.1 then s.farFault h (farOf t.2.1) t.2.2 else s.nearFault h (nearOf t.2.1) t.2.2
  | .mbx => x.mbxFault (mbxOf t.2.1)
  | .sys => s.sysFault h (sysOpOf t.2.1) t.2.2
  | .div => if tb (x.rd 0x008) 0 && x.opnd 0x2D == 0 then some 0x06 else none
  | .ctl => if t.2.1 = 0xD5 && x.loopBad x.pc.toNat then some 0x03 else none
  | .alu _ => none
  | .shf => none
  | .mul => none
  | .pred => none
  | .ful => none
  | .tmr => none

/-- The fault is raised on the word, which has no effect. -/
def State.trigRaise (s : State) (h : Hid) (t : TUnit × Nat × Word) (c : Byte) : State :=
  match t.1 with
  | .lsu _ => if 0xC8 ≤ t.2.1 then s.farRaise h (farOf t.2.1) t.2.2 c else s.nearRaise h (nearOf t.2.1) t.2.2 c
  | .div => s.modHearth h (fun x => ({ x with dvz := true } : Hearth).precise 6 0x06 0)
  | .sys => s.sysRaise h (sysOpOf t.2.1) t.2.2 c
  | _ => s.preciseFault h c

/-! ## The triggers of a word at their issue -/

/-- One trigger starts its operation; SYS comes last and is given the register's value at the start of the cycle. Table HT-5 gives
SYS no operand socket, so where O of csrw, csrs, csrc and csrx comes from in a word is open: it is a free word (DESIGN CHOICE, log
entry 28). A SYS write to the stack pointer of the current mode prevails over a move to g31 of the same word, where the spec
names no winner (DESIGN CHOICE, log entry 29). -/
def State.fire (s : State) (h : Hid) (old : Word) (t : TUnit × Nat × Word) : State :=
  let d := t.2.1
  let v := t.2.2
  match t.1 with
  | .alu u => s.modHearth h (fun x => x.alu u (aluOps.getD (d % 0x20) aluAdd) v)
  | .shf => s.modHearth h (fun x => x.shf (shfOps.getD (d - 0x80) shfShl) v)
  | .mul =>
    if d ≤ 0x95 then s.modHearth h (fun x => x.mulp (s.mulL h) (mulOps.getD (d - 0x90) mulMul) v)
    else s.modHearth h (fun x => x.mulAcc (s.mulL h) (accOps.getD (d - 0x96) .mac) v)
  | .div => s.modHearth h (fun x => x.dvd (s.divL h) (divOps.getD (d - 0xA0) divDiv) v)
  | .pred => s.modHearth h (fun x => x.prd (prdOps.getD (d - 0xA4) prdEq) v)
  | .lsu u => if 0xC8 ≤ d then s.farFire h (farOf d) v else s.nearFire h u (nearOf d) v
  | .ctl => if d = 0xD2 || d = 0xD3 then s.modHearth h Hearth.link else s
  | .ful => s.fulFire h (fulOf d) v
  | .mbx => s.mbxFire h (mbxOf d) v
  | .tmr =>
    if d = 0xE8 then s.tget h v
    else if d = 0xE9 then s.tarm h v
    else if d = 0xEA then s.tcan h
    else s.modHearth h (fun x => ({ x with twHold := none } : Hearth).tmr (w32 (s.nsCount h)))
  | .sys => { s.sysFireWith h (sysOpOf d) v (Config.freeWord s.free) old with free := s.free + 1 }

/-- The flow of control a word's trigger asks for (Table OM-4, R91). -/
def Hearth.flowOf (h : Hearth) (ts : List (TUnit × Nat × Word)) : Flow :=
  match ts.find? (fun t => t.1 == .ctl) with
  | some (_, d, v) =>
    if d = 0xD0 then .jump (fld v 0 15) false
    else if d = 0xD1 then .jump (h.relative v) false
    else if d = 0xD2 then .jump (fld v 0 15) true
    else if d = 0xD3 then .jump (h.relative v) true
    else if d = 0xD4 then .jump (h.jtab v) false
    else if d = 0xD5 then .loop (h.loopCount v)
    else h.breakAt v
  | none => .seq

/-- A word of moves at its issue, every stall cause passed: faults, else all its effects. -/
def State.issueMoves (s y : State) (h : Hid) (w : IWord) (ts : List (TUnit × Nat × Word)) : State :=
  let faults := ts.filterMap (fun t => (y.trigFault h t).map (fun c => (t, c)))
  match faults[if 1 < faults.length then Config.freeNat s.free % faults.length else 0]? with
  | some (t, c) => { s with free := if 1 < faults.length then s.free + 1 else s.free }.trigRaise h t c
  | none =>
    let x := s.hearth h
    let old := match ts.find? (fun t => t.1 == .sys) with
      | some t => s.csr h (fld t.2.2 0 11) x.mode
      | none => 0
    let rp := if tmpl w = 2 then some (x.repCount (wfld w 0 16)) else none
    (ts.foldl (fun (s : State) t => s.fire h old t) y).finish h ((y.hearth h).flowOf ts) rp

/-- A word of moves in a cycle in which it could issue: held by a stall, or executed with its collisions judged (R54, R56,
R68, R159). -/
def State.moveWord (s : State) (h : Hid) (w : IWord) : State :=
  let x := s.hearth h
  let ms := (movesOf w).filter (fun m => x.active m)
  if ms.any (fun m => x.movePend m) then s.stallCycle h (x.divHeld (triggersOf x ms))
  else
    let y := (s.startIssue h).modHearth h (fun z =>
      let z1 := ms.foldl (fun z m => z.write m.dst (x.moveVal m)) z
      if z1.remain ≠ 0 then { z1 with rep := some w } else z1)
    let ts := triggersOf x ms
    let dh := (y.hearth h).divHeld ts
    let oh := y.wordHeld h ts
    if dh || oh then s.stallCycle h dh
    else if y.tagHeld h ts then (s.waitTag (.far h 0)).stallCycle h false
    else if y.twaitHeld h ts then
      (s.waitCycle h).modHearth h (fun z => { z with twHold := some (z.twHold.getD (s.epochOf h)) })
    else if collide (fun _ => true) ms then s.preciseFault h 0x02
    else s.issueMoves y h w ts

/-- The word at the PC is decoded and reaches its issue (Table HT-4). -/
def State.issueWord (s : State) (h : Hid) : State :=
  let x := s.hearth h
  let w := match x.rep with
    | some w => if x.remain ≠ 0 then w else s.wordAt h x.pc.toNat
    | none => s.wordAt h x.pc.toNat
  match decodeFault w with
  | some c => s.preciseFault h c
  | none =>
    if x.placeFault w then s.preciseFault h 0x03
    else match (if tmpl w = 3 then sysWordOf w else none) with
      | some q => s.sysWord h q
      | none => s.moveWord h w

/-! ## A cycle of a hearth -/

/-- A cycle of a wait: it ends, or WAITC counts (R154, R155). -/
def State.waitStep (s : State) (h : Hid) : State :=
  let x := s.hearth h
  match x.wait with
  | .sleep w =>
    if w && x.doorbell != 0 then (s.modHearth h (fun x => { x with wait := .none })).extraCycles h 4 else s.waitCycle h
  | .epwait => if s.ewtReached h then s.epwaitEnd h else s.waitCycle h
  | .none => s
  | .sync _ => s.waitCycle h
  | .twait _ _ => s.waitCycle h
  | .commit => s.waitCycle h

/-- One cycle of a hearth: nothing while it is held, faulted or about to enter; the boundary decision; a cycle of a
wait; or the word at the PC. A halted hearth counts in WAITC. -/
def State.cycle (s : State) (h : Hid) : State :=
  let x := s.hearth h
  match x.run with
  | .held => s
  | .faulted => s
  | .halted => s.waitCycle h
  | .running =>
    if x.entry.isSome then s
    else match s.boundary h with
      | some e => s.modHearth h (fun x => x.ask e)
      | none => if x.wait == .none then s.issueWord h else s.waitStep h

/-- INSTRUCTION_WORD (R54): one cycle of a hearth, in which the word at its PC issues if nothing holds it; none while the clock of its
stack stands (17 R468, R470). -/
def execInstructionWord (h : Hid) (s : State) : Out := if s.stackRuns (stackOf h) then .next (s.cycle h) else .next s

/-- REPEATED_WORD (R102): one cycle of a hearth whose word at the PC is a repeated word in progress. -/
def execRepeatedWord (h : Hid) (s : State) : Out := if s.stackRuns (stackOf h) && (s.hearth h).remain != 0 then .next (s.cycle h) else .next s

end Sys2Proof.Machine
end

