-- ==== Sys2Proof/Machine/Epoch.lean ====
section
/-!
DEFINITION. The epoch controller (10): reports and copies, decisions, acks and seals of a fabric, disciplined time, and
the EPOCH registers. The tick edges stand in Tick.lean.
-/
namespace Sys2Proof.Machine
open Sys2Proof

def epoch : Nat := 0x40040000

/-- An event of EEVT; line 14 where EEVTEN has its bit (Table MN-6). -/
def State.epEvent (s : State) (b : Nat) : State := s.event (epoch + 0x48) (epoch + 0x4C) 14 b

def State.setEp (s : State) (e : Ep) : State := { s with ep := e }

/-- ECTL.RUN, MST, FAB and TSRC. -/
def State.epRun (s : State) : Bool := tb (s.reg epoch) 0
def State.epMst (s : State) : Bool := tb (s.reg epoch) 1
def State.epFab (s : State) : Bool := tb (s.reg epoch) 2
def State.epTsrc (s : State) : Nat := fld (s.reg epoch) 3 2

/-- A device that takes its time from a parent: a member of a fabric that is not its master (R295). -/
def State.epMember (s : State) : Bool := s.epFab && !s.epMst

/-- The parent port of a tree position, and whether a port leads to a child (ETREE). -/
def parentOf (tree : Word) : Option (Fin 4) := if fld tree 0 3 < 4 then some (fin 4 (fld tree 0 3)) else none
def childOf (tree : Word) (p : Fin 4) : Bool := tb tree (4 + p.val)
def childrenOf (tree : Word) : List (Fin 4) := allPorts.filter (childOf tree)

/-- EPER, EDL, EFWD, ESDL, ETREE and EPART come into force (R41, R298). -/
def State.epLoad (s : State) : State :=
  let per := fld (s.reg (epoch + 4)) 0 17
  s.setEp { s.ep with
    per := per, edl := min (fld (s.reg (epoch + 8)) 0 17) (per - 10)
    fdl := 100 * fld (s.reg (epoch + 0xC)) 0 21, sdl := 100 * fld (s.reg (epoch + 0x10)) 0 21
    tree := s.reg (epoch + 0x14)
    part := BitVec.ofNat 64 ((s.reg (epoch + 0x18)).toNat + (s.reg (epoch + 0x1C)).toNat * 2 ^ 32) }

/-- ns since the tick edge of the controller. -/
def State.epTime (s : State) : Nat := if s.ep.started then s.td - s.ep.edge else 0

/-! ## The frames of the mantel -/

/-- The fill frame: the lowest-numbered frame that holds neither page C nor C - 1, before it one that does not hold
C - 2 (R278). -/
def fillFrame (c c1 c2 : Option (Fin 3)) : Option (Fin 3) :=
  let ok := (List.finRange 3).filter (fun f => some f != c && some f != c1)
  match ok.find? (fun f => some f != c2) with
  | some f => some f
  | none => ok.head?

/-- A slice at the flip (Table MN-2): page N is its fill frame after an on-time COMMIT, else the frame of page N - 1; a
slice without one has its fill frame stand for it (R279). -/
def SliceMap.flip (m : SliceMap) (committed : Bool) : SliceMap :=
  let c := if committed then m.fill else m.c.or m.fill
  { m with c := c, c1 := m.c, c2 := m.c1, fill := fillFrame c m.c m.c1 }

/-- A frame is overwritten: what older pages held in it is lost (R291). -/
def SliceMap.lose (m : SliceMap) (f : Fin 3) : SliceMap :=
  let cut := fun (x : Option (Fin 3)) => if x = some f then none else x
  { m with c2 := cut m.c2, s := cut m.s, s1 := cut m.s1 }

/-- A page is held while every slice has its frame. -/
def Ep.heldBy (e : Ep) (g : SliceMap → Option (Fin 3)) : Bool := e.maps.toList.all (fun m => (g m).isSome)

/-- The frames of page `n`, if it is held. -/
def Ep.pageFrames (e : Ep) (n : Nat) : Option (SliceMap → Option (Fin 3)) :=
  if e.pgC = some n && e.heldBy (fun m => m.c) then some (fun m => m.c)
  else if e.pgC1 = some n && e.heldBy (fun m => m.c1) then some (fun m => m.c1)
  else if e.pgC2 = some n && e.heldBy (fun m => m.c2) then some (fun m => m.c2)
  else none

/-- Header words 0 and 1 of a slice are written into a frame (R273). -/
def State.writeHeader (s : State) (h : Hid) (f : Fin 3) (tag : Nat) (v : Bool) : State :=
  (s.wr32 (frameKey f h 0) (w32 tag)).wr32 (frameKey f h 4) (w32 (tag / 2 ^ 32 % 2 ^ 16 + h.val * 2 ^ 24) ||| bitAt v 16)

/-- The copy of a hearth's slice into its fill frame (R277). -/
def State.copySlice (s : State) (h : Hid) (n : Nat) : State :=
  match s.ep.maps[h].fill with
  | none => s
  | some f =>
    let s1 := (s.setBytes (frameKey f h 0x10) (s.bytes (draftKey h 0x10) 0xFF0)).writeHeader h f n true
    s1.setEp { s1.ep with maps := s1.ep.maps.set h (s1.ep.maps[h].lose f), copies := s1.ep.copies.filter (fun c => c != (h, n)) }

/-- The copies of a stack run in the order of their reports: `h` is the next of its stack (R277). -/
def Ep.nextCopy (e : Ep) (h : Hid) : Option Nat :=
  match e.copies.find? (fun c => c.1.val / 8 == h.val / 8) with
  | some (g, n) => if g = h then some n else none
  | none => none

/-- A view burst that was granted still reads the fill frame of a slice (R277). -/
def State.frameRead (s : State) (h : Hid) : Bool :=
  match s.xb.busy[(3 : Fin 19)] with
  | some r => match r.snap with
    | some (some (f, _)) => s.ep.maps[h].fill == some f && decide (r.addr % 0x40000 / 0x1000 = h.val)
    | _ => false
  | none => false

/-- SLICE_COPY (R277): once the seal gate is open and no view burst reads the frame. -/
def execSliceCopy (h : Hid) (s : State) : Out :=
  match s.ep.nextCopy h with
  | some n => if s.ep.gate && !s.frameRead h then .next (s.copySlice h n) else .next s
  | none => .next s

/-! ## Frames of the epoch protocol (12 Table YL-5) -/

/-- A number of 48 bits, or of 64, as two payload words. -/
def twoWords (n : Nat) : List Word := [w32 n, w32 (n / 2 ^ 32)]

/-- Stale entries as payload words, two in each (12 Table YL-5). -/
def StaleEnt.bits (e : StaleEnt) : Nat := e.node.toNat + (if e.s then 2 ^ 14 else 0) + (if e.l then 2 ^ 15 else 0)

def entWords : List StaleEnt → List Word
  | a :: b :: r => w32 (a.bits + b.bits * 2 ^ 16) :: entWords r
  | [a] => [w32 a.bits]
  | [] => []

/-- A port-directed frame of the epoch protocol. -/
def State.epFrame (s : State) (ty md : Nat) (pay : List Word) : Frame := s.frame ty .gs 0x3FFF 0 0x3F md 0 pay

/-- A port-directed frame leaves on a port; where the port is not UP it is lost (12 R353). -/
def State.sendPort (s : State) (p : Fin 4) (f : Frame) : State := if s.portUp p then s.sendOn p f else s

def State.sendPorts (s : State) (ps : List (Fin 4)) (f : Frame) : State :=
  ps.foldl (fun (s : State) p => s.sendPort p f) s

/-- The frame of entries for an epoch: EACK 0x0D, ESUP 0x0E, ESEAL 0x0F. -/
def State.entFrame (s : State) (ty n : Nat) (es : List StaleEnt) (ovf part : Bool) : Frame :=
  s.epFrame ty (es.length + (if ovf then 2 ^ 6 else 0) + (if part then 2 ^ 7 else 0)) (twoWords n ++ entWords es)

/-! ## Entries (R286) -/

/-- An entry added to a list kept by rising node. -/
def addEnt (e : StaleEnt) : List StaleEnt → List StaleEnt
  | [] => [e]
  | a :: r => if a = e then a :: r else if e.node.toNat ≤ a.node.toNat then e :: a :: r else a :: addEnt e r

/-- Entries added; beyond 32 the lowest node ids are kept and OVF is set. -/
def EpDec.add (d : EpDec) (es : List StaleEnt) (ovf : Bool) : EpDec :=
  let l := es.foldl (fun (l : List StaleEnt) e => addEnt e l) d.ents
  { d with ents := l.take 32, ovf := d.ovf || ovf || decide (32 < l.length) }

/-- An entry that nothing was heard of a node is resolved (R287). -/
def EpDec.resolve (d : EpDec) (n : BitVec 14) : EpDec := { d with ents := d.ents.filter (fun e => !(e.s && e.node == n)) }

/-- The node behind a child port. -/
def State.childNode (s : State) (p : Fin 4) : BitVec 14 := BitVec.ofNat 14 (fld (s.portNb p) 0 14)

/-- Children not heard by FDL are entered as S. -/
def State.missChildren (s : State) (d : EpDec) : EpDec :=
  { d.add (((childrenOf d.tree).filter (fun p => !d.acked.contains p)).map (fun p => ⟨s.childNode p, true, false⟩)) false with fdlGone := true }

/-! ## Seals (R288 to R291) -/

/-- Whether this device is named in a list. -/
def State.named (s : State) (l : List StaleEnt) : Bool := l.any (fun e => e.node == s.nodeId)

/-- A seal is applied while its page is held, else discarded (R290). -/
def State.applySeal (s : State) (x : Seal) : State :=
  match s.ep.pageFrames x.epoch with
  | none => s
  | some fr =>
    let e := s.ep
    let again := e.pgS == some x.epoch
    let keep := e.pgS.isSome && e.heldBy (fun m => m.s)
    let maps := e.maps.map (fun (m : SliceMap) =>
      { m with s := fr m, s1 := if again then m.s1 else if keep then m.s else none })
    let s1 := s.setEp { e with
      maps := maps, pgS := some x.epoch, pgS1 := if again then e.pgS1 else if keep then e.pgS else none
      staleS := s.named x.list, staleS1 := if again then e.staleS1 else e.staleS
      lastSeal := some x, gate := e.gate || x.epoch + 1 == e.cur }
    if x.list.isEmpty then s1.epEvent 1 else (s1.epEvent 1).epEvent 2

/-- A seal reaches this device: held until the flip that ends its epoch, applied at once after it (R290). -/
def State.gotSeal (s : State) (x : Seal) : State :=
  if s.ep.cur ≤ x.epoch then s.setEp { s.ep with heldSeal := some x } else s.applySeal x

/-- SEAL_APPLY (R284, R290): a held seal of an epoch that has ended is applied. -/
def execSealApply (s : State) : Out :=
  match s.ep.heldSeal with
  | some x => if x.epoch < s.ep.cur then .next ((s.setEp { s.ep with heldSeal := none }).applySeal x) else .next s
  | none => .next s

/-! ## Decisions and acks (R286 to R288) -/

/-- A record of the controller changed by `f`. -/
def State.modDec (s : State) (n : Nat) (f : EpDec → EpDec) : State :=
  s.setEp { s.ep with dec := s.ep.dec.map (fun d => if d.epoch = n then f d else d) }

def State.findDec (s : State) (n : Nat) : Option EpDec := s.ep.dec.find? (fun d => d.epoch == n)

/-- The list that a seal carries: S entries left and all L entries. -/
def EpDec.seal (d : EpDec) : Seal := ⟨d.epoch, d.ents, d.ovf⟩

/-- The master seals an epoch: the seal goes down the tree and to this device (R288). -/
def State.sealEpoch (s : State) (d : EpDec) : State :=
  let s1 := s.modDec d.epoch (fun d => { d with sealed := true })
  (s1.sendPorts (childrenOf d.tree) (s1.entFrame 0x0F d.epoch d.ents d.ovf false)).gotSeal d.seal

/-- Every child has acked, or FDL has passed. -/
def EpDec.heard (d : EpDec) : Bool := d.fdlGone || (childrenOf d.tree).all (fun p => d.acked.contains p)

/-- The combined ack goes to the parent at its first moment; the master seals at its own (R286, R288). -/
def State.progress (s : State) (n : Nat) : State :=
  match s.findDec n with
  | none => s
  | some d =>
    if !s.epFab || d.own.isNone || !d.heard then s
    else if s.epMst then (if !d.sealed && d.ents.all (fun e => !e.s) then s.sealEpoch d else s)
    else if d.ackSent then s
    else
      let s1 := s.modDec n (fun d => { d with ackSent := true })
      match parentOf d.tree with
      | some p => s1.sendPort p (s1.entFrame 0x0D n d.ents d.ovf (d.own == some false))
      | none => s1

/-- EPDL passes: without every participant the decision is PARTIAL with {own node, L}; the gate opens, and by EPDL
alone it is a miss of the seal (R277, R286, R291). -/
def State.passEpdl (s : State) : State :=
  let s1 := s.setEp { s.ep with epdlGone := true, gate := true }
  let s2 := if s.ep.gate then s1 else (s1.epEvent 3).count (epoch + 0x5C)
  match s2.findDec s2.ep.cur with
  | some d =>
    if d.own.isNone then
      (s2.modDec d.epoch (fun d => { d with own := some false }.add [⟨s2.nodeId, false, true⟩] false)).progress d.epoch
    else s2
  | none => s2

/-- EPDL (R286, R291). -/
def execEpdl (s : State) : Out :=
  if s.ep.started && !s.ep.epdlGone && decide (s.ep.edl * 1000 ≤ s.epTime) then .next s.passEpdl else .next s

/-- FDL (R286): the oldest epoch whose forward deadline has passed. -/
def execFdl (s : State) : Out :=
  match s.ep.dec.reverse.find? (fun d => !d.fdlGone && decide (d.edge + d.fdl ≤ s.td)) with
  | some d => .next ((s.modDec d.epoch s.missChildren).progress d.epoch)
  | none => .next s

/-- SDL (R288): the master seals the oldest epoch not sealed whose seal deadline has passed. -/
def execSdl (s : State) : Out :=
  if !(s.epFab && s.epMst) then .next s
  else match s.ep.dec.reverse.find? (fun d => !d.sealed && decide (d.edge + d.sdl ≤ s.td)) with
    | some d =>
      let s1 := if d.fdlGone then s else s.modDec d.epoch s.missChildren
      .next (match s1.findDec d.epoch with
        | some d1 => s1.sealEpoch d1
        | none => s1)
    | none => .next s

/-! ## Reports of COMMIT (R276) -/

/-- EPST of a hearth changed by `f`. -/
def State.modEpst (s : State) (h : Hid) (f : Word → Word) : State := s.modHearth h (fun x => x.wr 0x050 (f (x.rd 0x050)))

/-- A report on time: ECMT, EPST.LCE and LATE, a copy queued; the last participant's makes the decision COMPLETE. -/
def State.onTime (s : State) (h : Hid) (n : Nat) : State :=
  let s1 := (s.setEp { s.ep with ecmt := s.ep.ecmt ||| BitVec.ofNat 64 (2 ^ h.val), copies := s.ep.copies ++ [(h, n)] }).modEpst h
    (fun w => setBit (putF w 0 24 n) 24 false)
  if s1.ep.part &&& ~~~s1.ep.ecmt = 0 then
    (s1.modDec n (fun d => if d.own.isNone then { d with own := some true } else d)).progress n
  else s1

/-- A late report (R276). -/
def State.lateReport (s : State) (h : Hid) : State :=
  ((s.count (epoch + 0x40)).modEpst h (fun w => setBit w 24 true)).epEvent 0

/-- Whether a report carrying `n` is on time now: EPDL itself counts (R46, R276). -/
def State.isOnTime (s : State) (n : Nat) : Bool :=
  s.ep.started && n == s.ep.cur && decide (s.epTime ≤ s.ep.edl * 1000)

/-- COMMIT_REPORT (R276). -/
def execCommitReport (h : Hid) (s : State) : Out :=
  match (s.hearth h).report with
  | none => .next s
  | some n =>
    let s1 := s.modHearth h (fun x => { x with report := none })
    .next (if s1.isOnTime n then s1.onTime h n else s1.lateReport h)

/-- COMMIT_COMPLETION (R276; 05 R155): the acceptance reaches the hearth, which may have taken an interrupt in the wait; EPST.CMT is
set unless an edge came meanwhile, and the wait ends. -/
def execCommitCompletion (h : Hid) (s : State) : Out :=
  let x := s.hearth h
  if (x.wait == .commit || x.cmtPend) && x.report.isNone then
    .next ((s.modHearth h (fun x => { x with wait := if x.wait = .commit then .none else x.wait, cmtPend := false })).modEpst h
      (fun w => if x.cmtPend && !x.cmtEdge then setBit w 25 true else w))
  else .next s

/-! ## What arrives from the tree (R285, R287, R288, R292) -/

/-- A tick token: it is forwarded, kept, and its number is checked against the current epoch. -/
def State.gotToken (s : State) (f : Frame) (n t : Nat) : State :=
  let s1 := s.sendPorts (childrenOf s.ep.tree) f
  let s2 := s1.setEp { s1.ep with token := some (n, t), noToken := 0, heard := true, mlost := false }
  if s2.ep.started && n != s2.ep.cur then
    ((s2.setEp { s2.ep with resync := some (n + 1) }).epEvent 4).count (epoch + 0x60)
  else s2

/-- An ack of a child that came after this device's own is forwarded as a supplement (R287). -/
def State.forwardSup (s : State) (tree : Word) (f : Frame) : State :=
  match parentOf tree with
  | some p => s.sendPort p { f with type := 0x0E }
  | none => s

/-- An ack of a child for epoch `n` arrives on port `p` from node `x` (R286, R287). -/
def State.gotAck (s : State) (p : Fin 4) (f : Frame) (n : Nat) (es : List StaleEnt) (ovf : Bool) : State :=
  match s.findDec n with
  | none => if s.epMember then s.forwardSup s.ep.tree f else s
  | some d =>
    if s.epMst then
      (if d.sealed then s
       else (s.modDec n (fun d => { (d.resolve f.src).add es ovf with acked := p :: d.acked })).progress n)
    else if d.ackSent then s.forwardSup d.tree f
    else (s.modDec n (fun d => { d.add es ovf with acked := p :: d.acked })).progress n

/-- A supplement is relayed toward the master, which resolves the child's S entry by it (R287). -/
def State.gotSup (s : State) (f : Frame) (n : Nat) (es : List StaleEnt) (ovf : Bool) : State :=
  match s.findDec n with
  | none => if s.epMember then s.forwardSup s.ep.tree f else s
  | some d =>
    if s.epMst then (if d.sealed then s else (s.modDec n (fun d => (d.resolve f.src).add es ovf)).progress n)
    else s.forwardSup d.tree f

/-- A seal from the parent goes down the tree and to this device. -/
def State.relaySeal (s : State) (f : Frame) (x : Seal) : State :=
  (s.sendPorts (childrenOf s.ep.tree) f).gotSeal x

/-- MLOST (R292): a member without a token for 4 consecutive epochs. -/
def execMlost (s : State) : Out :=
  if s.epMember && s.ep.started && decide (4 ≤ s.ep.noToken) && !s.ep.mlost then
    .next ((s.setEp { s.ep with mlost := true }).epEvent 5)
  else .next s

/-! ## Disciplined time (R294 to R296) -/

/-- The limit of a rate, +-200 ppm, in units of PTPADJ: 2^-32 ns in 40 ns (18 R487). -/
def slewLimit : Int := 34359738

/-- PTPADJ as it is held to its limit (18 R487). -/
def State.ptpRate (s : State) : Int := clampI (s.reg 0x400D004C).toInt (-slewLimit) slewLimit

/-- The rate correction in force: a member's slew, or the IEEE 1588 clock's rate with TSRC = 1 (R295, R296). -/
def State.tdRate (s : State) : Int :=
  if s.epMember then s.ep.rate else if s.epTsrc = 1 then s.ptpRate else 0

/-- 8 ns of the core clock pass for disciplined time: it advances in 8 ns steps, one more or one less when the rate
correction has gathered 8 ns (R294). A slew at its limit is noted for the epoch (R295). -/
def State.tdPass (s : State) : State :=
  let full : Int := 40 * 2 ^ 32
  let a := s.ep.rateAcc + s.tdRate
  let s := if s.epTsrc = 1 && s.ptpRate.natAbs == slewLimit.natAbs then s.setEp { s.ep with atLim := true } else s
  if full ≤ a then { s.setEp { s.ep with rateAcc := a - full } with td := s.td + 16 }
  else if a ≤ -full then s.setEp { s.ep with rateAcc := a + full }
  else { s.setEp { s.ep with rateAcc := a } with td := s.td + 8 }

/-- LOCK cleared, with UNLOCK (R295). -/
def State.unlock (s : State) : State :=
  if s.ep.lock then (s.setEp { s.ep with lock := false, lockN := 0 }).epEvent 7 else s.setEp { s.ep with lockN := 0 }

/-- One more exchange or epoch within the bound; the eighth in a row sets LOCK (R295). -/
def State.lockStep (s : State) : State :=
  s.setEp { s.ep with lockN := s.ep.lockN + 1, lock := s.ep.lock || decide (8 ≤ s.ep.lockN + 1) }

/-- TDOFF: the last offset, saturating (Table MN-6). -/
def tdoff (o : Int) : Word := wOfInt (clampI o (-(2 ^ 31 - 1)) (2 ^ 31 - 1))

/-- A rate correction toward the sign of an offset, at most 200 ppm; how much of it the spec leaves open (log entry 2). -/
def slewFor (o : Int) (n : Nat) : Int :=
  let m : Int := Int.ofNat (Config.freeNat n % 34359739)
  if o < 0 then -m else if o = 0 then 0 else m

/-- An exchange has given the offset `o` in ns (R295). -/
def State.gotOffset (s : State) (o : Int) : State :=
  let a := o.natAbs
  let s1 := s.setReg (epoch + 0x78) (tdoff o)
  let s2 := if a ≤ 500 then s1.lockStep else if 1000 < a then s1.unlock else s1.setEp { s1.ep with lockN := 0 }
  if a ≤ 50000 then { s2.setEp { s2.ep with rate := slewFor o s2.free } with free := s2.free + 1 }
  else s2.setEp { s2.ep with rate := 0, step := some o }

/-- The offset of the four timestamps t1 to t4 of an exchange, counts of 0.8 ns in 48 bits, in ns: ((t2 - t1) + (t3 - t4)) / 2. -/
def exchangeOffset (t1 t2 t3 t4 : Nat) : Int :=
  (sgn 48 (trunc 48 (Int.ofNat t2 - Int.ofNat t1)) + sgn 48 (trunc 48 (Int.ofNat t3 - Int.ofNat t4))) * 4 / 10

/-- A time of this device at its PHY, in 0.8 ns units (R337, R295). -/
def State.phyTime (s : State) : Nat := s.td * 5 / 4 % 2 ^ 48

/-- TIME_EXCHANGE (R295): on the parent port, a TSQ goes out; once its four timestamps are there, the offset acts. -/
def execTimeExchange (p : Fin 4) (s : State) : Out :=
  if !(s.epMember && parentOf s.ep.tree == some p && s.portUp p) then .next s
  else match (s.port p).stamps with
    | [t1, t2, t3, t4] =>
      .next ((s.modPort p (fun x => { x with stamps := [] })).gotOffset (exchangeOffset t1 t2 t3 t4))
    | _ => .next ((s.modPort p (fun x => { x with stamps := [s.phyTime] })).sendCtl p 0x05 s.phyTime)

/-! ## The EPOCH registers (Table MN-6) -/

/-- ESTAT.LOCK: of a device without a parent, the reference or the slew of its source tells (R295). -/
def State.epLock (s : State) : Bool := if !s.epMember && s.epTsrc == 0 then s.pw.ref else s.ep.lock

/-- ESTAT.LOCK is cleared without an exchange, with UNLOCK where it was set: at the loss of the reference and by Ember (17 R461, R472). -/
def State.lockLost (s : State) : State :=
  let s1 := if s.epLock then s.epEvent 7 else s
  s1.setEp { s1.ep with lock := false, lockN := 0 }

def Ep.held (e : Ep) (p : Option Nat) (g : SliceMap → Option (Fin 3)) : Bool := p.isSome && e.heldBy g

def State.estat (s : State) : Word :=
  let e := s.ep
  bitAt (!e.copies.isEmpty) 0 ||| bitAt e.gate 1 ||| bitAt s.epLock 2 ||| bitAt e.mlost 3
    ||| bitAt (e.held e.pgS (fun m => m.s)) 4 ||| bitAt (e.held e.pgS1 (fun m => m.s1)) 5 ||| bitAt e.dpart 6

/-- ESLST: SELF as it was set when the seal was applied (R290). -/
def State.eslst (s : State) : Word :=
  match s.ep.lastSeal with
  | none => 0
  | some x => w32 x.list.length ||| bitAt x.ovf 8 ||| bitAt s.ep.staleS 9

def State.estl (s : State) (i : Nat) : Word :=
  match s.ep.lastSeal with
  | none => 0
  | some x => match x.list[i]? with
    | some e => w32 e.bits ||| bitAt true 31
    | none => 0

def frameCode (f : Option (Fin 3)) : Nat :=
  match f with
  | some f => f.val
  | none => 3

/-- MSMAPk: four slices, each with the frames of C, C - 1, C - 2 and the fill frame. -/
def State.msmap (s : State) (k : Nat) : Word :=
  w32 (leNat ((List.range 4).map (fun j =>
    let m := s.ep.maps[fin 64 (4 * k + j)]
    BitVec.ofNat 8 (frameCode m.c + 4 * frameCode m.c1 + 16 * frameCode m.c2 + 64 * frameCode m.fill))))

/-- A read of the EPOCH block at offset `o`: a read of a low word latches its high word. -/
def State.epochRead (s : State) (_w : Who) (o : Nat) : BusR :=
  let e := s.ep
  if o = 0x020 then .ok (w32 e.cur, s.setReg (epoch + 0x024) (w32 (e.cur / 2 ^ 32 % 2 ^ 16)))
  else if o = 0x028 then .ok (w32 s.epTime, s)
  else if o = 0x030 then .ok (w32 e.ecmt.toNat, s)
  else if o = 0x034 then .ok (w32 (e.ecmt.toNat / 2 ^ 32), s)
  else if o = 0x038 then .ok (w32 e.elate.toNat, s)
  else if o = 0x03C then .ok (w32 (e.elate.toNat / 2 ^ 32), s)
  else if o = 0x044 then .ok (s.estat, s)
  else if o = 0x050 then .ok (w32 (e.pgS.getD 0), s.setReg (epoch + 0x054) (w32 (e.pgS.getD 0 / 2 ^ 32 % 2 ^ 16)))
  else if o = 0x058 then .ok (s.eslst, s)
  else if o = 0x070 then .ok (w32 s.td, s.setReg (epoch + 0x074) (w32 (s.td / 2 ^ 32)))
  else if within 0x080 o 0x0FF then .ok (s.estl ((o - 0x080) / 4), s)
  else if within 0x100 o 0x13F then .ok (s.msmap ((o - 0x100) / 4), s)
  else .ok (s.reg (epoch + o), s.clearRc (epoch + o))

/-- A written value with reserved encodings replaced by the field's old value (00 R12). -/
def State.epochKeep (s : State) (o : Nat) (v : Word) : Word :=
  if o = 0 then (if 2 ≤ fld v 3 2 then putF v 3 2 s.epTsrc else v)
  else if o = 4 then (if within 250 (fld v 0 17) 100000 then v else s.reg (epoch + 4))
  else if o = 0x014 then (if 5 ≤ fld v 0 3 then putF v 0 3 (fld (s.reg (epoch + 0x014)) 0 3) else v)
  else v

/-- A write to the EPOCH block at offset `o`; before the first edge the new values act at once (R298). -/
def State.epochWrite (s : State) (w : Who) (o : Nat) (v : Word) : BusW :=
  if !whoGs w then .error 2
  else
    let s1 := s.putReg (epoch + o) (s.epochKeep o v) (tb (s.reg epoch) 8)
    .ok (if s1.ep.started then s1 else s1.epLoad)

end Sys2Proof.Machine
end

