-- ==== Sys2Proof/Machine/Afe.lean ====
section
/-!
DEFINITION. The measurement front end (15): conversions, open sensors, calibrated values, cold junctions, the sample
page, current transformers, and the AFE registers.
-/
namespace Sys2Proof.Machine
open Sys2Proof

def afeB : Nat := 0x40070000

/-- An event of AEVT; line 10 where AEVTEN has its bit (Table ME-7). -/
def State.afeEvent (s : State) (b : Nat) : State := s.event (afeB + 0x008) (afeB + 0x00C) 10 b

def State.setAfe (s : State) (a : Afe) : State := { s with afe := a }
def State.afeCh (s : State) (c : Fin 48) : AfeCh := s.afe.ch[c]
def State.setAfeCh (s : State) (c : Fin 48) (x : AfeCh) : State := s.setAfe { s.afe with ch := s.afe.ch.set c x }

/-- Fields of an ACHn value. -/
def achMode (w : Word) : Nat := fld w 0 3
def achWire (w : Word) : Nat := fld w 4 2
def achCjs (w : Word) : Nat := fld w 8 2
def achBo (w : Word) : Bool := tb w 12

/-- The converter of a channel (R409). -/
def convOf (c : Fin 48) : Fin 8 := ⟨c.val / 6, by omega⟩

/-- An RTD channel in 3-wire connection (R411). -/
def threeWire (w : Word) : Bool := (achMode w == 2 || achMode w == 3) && achWire w == 1

/-- ACVk.EFF: the rate in force, at most 500 S/s with an enabled 3-wire channel (R411). -/
def State.convEff (s : State) (k : Fin 8) : Nat :=
  let r := s.afe.rate[k]
  if (List.finRange 48).any (fun c => convOf c == k && threeWire (s.afeCh c).cfg) then max r 1 else r

/-- The conversion period of a rate code, in ns (Table ME-7). -/
def ratePeriod (r : Nat) : Nat :=
  if r = 0 then 1000000 else if r = 1 then 2000000 else if r = 2 then 4000000 else if r = 3 then 10000000
  else if r = 4 then 20000000 else 100000000

/-- The conversion period of a channel (R409). -/
def State.chPeriod (s : State) (c : Fin 48) : Nat := ratePeriod (s.convEff (convOf c))

/-- The clocks of the island run: the reference feeds them (17 Table PW-1, Table PW-5). -/
def State.afeRuns (s : State) : Bool := s.pw.ref && decide (s.pw.st < 2)

/-- Conversions go on (R409; 17 R474). -/
def State.converts (s : State) : Bool := s.afeRuns && !s.afe.off

/-- The start of the slot that ends now: a sixth of the period ago (R409). -/
def State.slotStart (s : State) (c : Fin 48) : Nat := s.now - s.chPeriod c / 6

/-- A written setting is in force by the slot that started at `t` (R423). -/
def AfeCh.due (x : AfeCh) (t : Nat) : Bool :=
  match x.wr with
  | some w => decide (w ≤ t)
  | none => false

/-- When the first slot of a channel starts from `w` on, as far as the slots since its last completion tell (R409, R423). -/
def State.slotFrom (s : State) (c : Fin 48) (w : Nat) : Nat :=
  let p := s.chPeriod c
  let next := (s.afeCh c).last + p - p / 6
  if w ≤ next then next else next + (w - next + p - 1) / p * p

/-- The channels of a converter whose period changed at `t`: the periods that the damper has counted without a code stand, and it goes on
at the new rate (R423, 11 R310). -/
def State.rescale (s old : State) (k : Fin 8) (t : Int) : State :=
  { s with dm := { s.dm with chAt := Vector.ofFn (fun (c : Fin 48) =>
      if convOf c = k && old.chPeriod c ≠ s.chPeriod c then t - (t - s.dm.chAt[c]) * Int.ofNat (s.chPeriod c) / Int.ofNat (old.chPeriod c)
      else s.dm.chAt[c]) } }

/-- A setting `w` of a channel comes into force (R423); `skip` says that its first conversion is still to come. -/
def State.chSet (s : State) (c : Fin 48) (w : Word) (skip : Bool) : State :=
  (s.setAfeCh c { s.afeCh c with cfg := w, wr := none, v := false, skip := skip, isOpen := false, run := 0 }).rescale s (convOf c) (Int.ofNat s.dnow)

/-- Written settings whose slots have started by now come into force (R423). -/
def State.afeSync (s : State) : State :=
  (List.finRange 48).foldl (fun (s : State) c =>
    match (s.afeCh c).wr with
    | some w => if s.slotFrom c w ≤ s.now then s.chSet c (s.reg (afeB + 0x100 + 4 * c.val)) true else s
    | none => s) s

/-! ## Raw codes (R412, R413) -/

/-- A raw code clamped to +-8,388,607, and whether it reached a clamp (R412). -/
def clampRaw (x : Int) : Int := clampI x (-8388607) 8388607
def atClamp (x : Int) : Bool := decide (x ≤ -8388607) || decide (8388607 ≤ x)

/-- The condition of an open sensor (R413). -/
def openCond (w : Word) (raw : Int) (lost : Bool) : Bool :=
  if achMode w = 1 then achBo w && decide (8388607 ≤ raw) else lost || decide (8388607 ≤ raw)

/-- OPEN after two conversions in a row that contradict it (R413). -/
def AfeCh.judge (x : AfeCh) (cond : Bool) : AfeCh :=
  if cond = x.isOpen then { x with run := 0 }
  else if 1 ≤ x.run then { x with isOpen := cond, run := 0 }
  else { x with run := 1 }

/-! ## Calibrated values (R414) -/

/-- GNOM of a mode (Table ME-1). -/
def gnom (m : Nat) : Int := if m = 1 then 4000000 else if m = 2 then 200000 else 2000000

/-- The calibration of a channel was made in its mode. -/
def State.calMatch (s : State) (c : Fin 48) (m : Nat) : Bool := fld (s.reg (afeB + 0x204 + 8 * c.val)) 24 3 == m

/-- The calibrated value of a raw code (R414). -/
def State.calValue (s : State) (c : Fin 48) (m : Nat) (raw : Int) : Int :=
  let ok := s.calMatch c m
  let g : Int := if ok then Int.ofNat (fld (s.reg (afeB + 0x200 + 8 * c.val)) 0 24) else 0x400000
  let o : Int := if ok then sgn 24 (fld (s.reg (afeB + 0x204 + 8 * c.val)) 0 24) else 0
  let k := floorShr ((raw - o) * g + 2 ^ 21) 22
  clampI (floorShr (k * gnom m + 2 ^ 21) 22) (-2 ^ 23) (2 ^ 23 - 1)

/-- A conversion that counts completes (R412 to R414). -/
def State.convert (s : State) (c : Fin 48) (x : AfeCh) (code : BitVec 24) (lost : Bool) : State :=
  let raw0 := clampRaw code.toInt
  let y := x.judge (openCond x.cfg raw0 lost)
  let raw := if y.isOpen then 8388607 else raw0
  let m := achMode x.cfg
  let z : AfeCh := { y with v := true, last := s.now, ovr := y.isOpen || atClamp raw0, val := BitVec.ofInt 24 (s.calValue c m raw) }
  let s1 := (s.setAfeCh c z).setReg (afeB + 0x400 + 4 * c.val) (wOfInt raw)
  let s2 := s1.setAfe { s1.afe with sent := s1.afe.sent ++ [(c, BitVec.ofInt 24 raw)] }
  let s3 := if atClamp raw0 then s2.afeEvent 1 else s2
  let s4 := if y.isOpen && !x.isOpen then s3.afeEvent 0 else s3
  if s.calMatch c m then s4 else s4.afeEvent 4

/-- CONVERSION (R409, R423): the slot of a channel ends with `code`; `lost` says that the excitation lost its
compliance. -/
def execConversion (c : Fin 48) (code : BitVec 24) (lost : Bool) (s0 : State) : Out :=
  if !s0.converts then .next s0
  else
    let s := s0.afeSync
    let x := s.afeCh c
    if x.due (s.slotStart c) then
      (let s1 := s.chSet c (s.reg (afeB + 0x100 + 4 * c.val)) false
       .next (s1.setAfeCh c { s1.afeCh c with last := s.now }))
    else if achMode x.cfg = 0 then .next s
    else if x.skip then .next (s.setAfeCh c { x with skip := false, last := s.now })
    else .next (s.convert c x code lost)

/-- RATE_CHANGE (R423): a converter starts its slot 0 with the rate of ACVk. -/
def execRateChange (k : Fin 8) (s0 : State) : Out :=
  if !s0.afeRuns then .next s0
  else
    let s := s0.afeSync
    .next ((s.setAfe { s.afe with rate := s.afe.rate.set k (fld (s.reg (afeB + 0x020 + 4 * k.val)) 0 3) }).rescale s k (Int.ofNat s.dnow))

/-- CODE_ABSENCE (11 R310): no code of a channel for two of its conversion periods trips CHAN. -/
def execCodeAbsence (c : Fin 48) (s0 : State) : Out :=
  let s := s0.afeSync
  if s.chEn c && decide (s.dm.chAt[c] + 2 * Int.ofNat (s.chPeriod c) ≤ Int.ofNat s.dnow) then .next (s.chTrip c) else .next s

/-! ## Cold junctions (R416) -/

/-- Whether a source of the cold-junction block is enabled: CJD always. -/
def State.cjOn (s : State) (k : Fin 3) : Bool := k == 0 || tb (s.reg (afeB + 0x040)) k.val

/-- The calibration offset of a source. -/
def State.cjOfs (s : State) (k : Fin 3) : Int :=
  sgn 16 (if k = 0 then fld (s.reg (afeB + 0x044)) 0 16 else if k = 1 then fld (s.reg (afeB + 0x044)) 16 16
    else fld (s.reg (afeB + 0x048)) 0 16)

/-- The temperature code with its offset; the spec states no code for a sum outside 16 bits (log entry 2). -/
def cjSum (x : Int) (n : Nat) : BitVec 16 :=
  if 0 ≤ x ∧ x < 2 ^ 16 then BitVec.ofInt 16 x else BitVec.ofNat 16 (Config.freeWord n).toNat

/-- CJ_CONVERSION (R416): a source measured `code`; `loop` says that the loop of an external source is open: it is reported OPEN, with its
last code, 0 where it has none (log entry 46). -/
def execCjConversion (k : Fin 3) (code : Half) (loop : Bool) (s : State) : Out :=
  if !s.converts || !s.cjOn k then .next s
  else
    let x := s.afe.cj[k]
    let y : AfeCj := if loop && k != 0 then { x with v := true, last := s.now, isOpen := true }
      else ⟨true, s.now, cjSum (Int.ofNat code.toNat + s.cjOfs k) s.free, false⟩
    .next { s.setAfe { s.afe with cj := s.afe.cj.set k y } with free := s.free + 1 }

/-! ## Current transformers (R419) -/

/-- CT_SAMPLE (R419, 11 R331): a code of an enabled input goes to the firing scheduler. -/
def execCtSample (j : Fin 12) (v : BitVec 16) (s : State) : Out :=
  if !s.converts || !tb (s.reg (afeB + 0x060)) j.val then .next s
  else
    let x := s.dm.ct[j]
    let s1 := { s with dm := { s.dm with ct := s.dm.ct.set j { x with n := x.n + 1, sq := x.sq + (v.toInt * v.toInt).toNat } } }
    .next (if v = 0x7FFF || v = 0x8000 then s1.afeEvent 5 else s1)

/-! ## The sample page (R417) -/

/-- AGE of a source: sixteenths of its period since its completion, at most 15. -/
def ageOf (now last period : Nat) : Nat := min 15 ((now - last) * 16 / period)

/-- Whether the source that ACHn.CJS names is OPEN or disabled (R416). -/
def State.cjBad (s : State) (w : Word) : Bool :=
  if achCjs w = 3 then false
  else
    let k := fin 3 (achCjs w)
    (s.afe.cj[k]).isOpen || !s.cjOn k

/-- The word of a channel in the page (Table ME-4). -/
def State.chWord (s : State) (c : Fin 48) : Word :=
  let x := s.afeCh c
  if !x.v then 0
  else w32 (x.val.toNat + ageOf s.now x.last (s.chPeriod c) * 2 ^ 24) ||| bitAt true 28 ||| bitAt x.isOpen 29
    ||| bitAt x.ovr 30 ||| bitAt (s.cjBad x.cfg) 31

/-- The word of a cold-junction source (Table ME-4); each is measured at 10 S/s. -/
def State.cjWord (s : State) (k : Fin 3) : Word :=
  let x := s.afe.cj[k]
  if !x.v || !s.cjOn k then 0
  else w32 (x.code.toNat + ageOf s.now x.last 100000000 * 2 ^ 24) ||| bitAt true 28 ||| bitAt x.isOpen 29

/-- Word `i` of the page (Table ME-4). -/
def State.pageWord (s : State) (i : Nat) : Word :=
  if i = 0 || i = 63 then w32 s.ep.cur
  else if i = 1 then w32 (s.ep.cur / 2 ^ 32 % 2 ^ 16)
  else if i = 2 then w32 s.ep.edge
  else if i = 3 then w32 (s.ep.edge / 2 ^ 32)
  else if i < 52 then s.chWord (fin 48 (i - 4))
  else if i < 55 then s.cjWord (fin 3 (i - 52))
  else 0

/-- The tick edge reaches the island (R417): the page that ASPCUR does not name is written, then ASPCUR names it. -/
def State.samples (s0 : State) : State :=
  let s := s0.afeSync
  let base := if s.afe.page then afeB + 0x8000 else afeB + 0x8100
  let s1 := (List.range 64).foldl (fun (t : State) i => t.wr32 (base + 4 * i) (s.pageWord i)) s
  let s2 := s1.setAfe { s1.afe with page := !s1.afe.page, edge := false }
  if (List.finRange 48).any (fun c => tb (s.chWord c) 31) then s2.afeEvent 2 else s2

/-- SAMPLE_LATCH (R417, 02 R38): the edge that started the current epoch reaches the island, once. -/
def execSampleLatch (s : State) : Out := .next (if s.afe.edge && s.afeRuns then s.samples else s)

/-! ## The AFE registers (Table ME-7) -/

/-- AOPEN0 and AOPEN1. -/
def State.aopen (s : State) (i : Nat) : Word :=
  (List.finRange 48).foldl (fun w c => if c.val / 32 = i && (s.afeCh c).isOpen then w ||| w32 (2 ^ (c.val % 32)) else w) 0

/-- A read of the AFE block at offset `o`. -/
def State.afeRead (s0 : State) (_w : Who) (o : Nat) : BusR :=
  let s := s0.afeSync
  if o = 0x004 then .ok (bitAt s.afe.bad 0 ||| bitAt s.afe.page 1, s)
  else if o = 0x010 then .ok (bitAt s.afe.page 0, s)
  else if o = 0x014 || o = 0x018 then .ok (s.aopen ((o - 0x014) / 4), s)
  else if within 0x020 o 0x03F then
    .ok (s.reg (afeB + o) ||| w32 (s.convEff (fin 8 ((o - 0x020) / 4)) * 2 ^ 4), s)
  else if 0x8000 ≤ o then .ok (s.rd32 (afeB + o), s)
  else .ok (s.reg (afeB + o), s)

/-- A written value with reserved encodings replaced by the field's old value (00 R12). -/
def State.afeKeep (s : State) (o : Nat) (v : Word) : Word :=
  let old := s.reg (afeB + o)
  if within 0x020 o 0x03F then (if 6 ≤ fld v 0 3 then old else v)
  else if within 0x100 o 0x1BF then
    (let v1 := if 4 ≤ fld v 0 3 then putF v 0 3 (achMode old) else v
     if achWire v1 = 3 then putF v1 4 2 (achWire old) else v1)
  else v

/-- ACHn after a write: the setting acts from the channel's next slot (R423). -/
def State.achWritten (s : State) (c : Fin 48) : State := s.setAfeCh c { s.afeCh c with wr := some s.now }

/-- A source that ACJ disables has nothing completed when it is enabled again. -/
def State.cjCut (s : State) : State :=
  s.setAfe { s.afe with cj := Vector.ofFn (fun k => if s.cjOn k then s.afe.cj[k] else ⟨false, 0, 0, false⟩) }

/-- A write to the AFE block at offset `o`. -/
def State.afeWrite (s0 : State) (w : Who) (o : Nat) (v : Word) : BusW :=
  let s := s0.afeSync
  if !whoGs w then .error 2
  else
    let lk := tb (s.reg afeB) 8
    let s1 := s.putReg (afeB + o) (s.afeKeep o v) lk
    if within 0x100 o 0x1BF && !lk then .ok (s1.achWritten (fin 48 ((o - 0x100) / 4)))
    else if o = 0x040 then .ok s1.cjCut
    else .ok s1

end Sys2Proof.Machine
end

