-- ==== Sys2Proof/Machine/Crypto.lean ====
section
/-!
DEFINITION. SHA-256 and the verification of an ECDSA signature over the curve P-256, as the standards that 16 R434 and R453 name
define them: FIPS 180-4 (section 6.2) and FIPS 186-4 (section 6.4, curve D.1.2.3). Their constants stand in those standards and
not in the spec (log entry 4).
-/
namespace Sys2Proof.Machine
open Sys2Proof

/-! ## SHA-256 -/

/-- The round constants, FIPS 180-4 section 4.2.2. -/
def shaK : List Word :=
  [0x428a2f98, 0x71374491, 0xb5c0fbcf, 0xe9b5dba5, 0x3956c25b, 0x59f111f1, 0x923f82a4, 0xab1c5ed5,
   0xd807aa98, 0x12835b01, 0x243185be, 0x550c7dc3, 0x72be5d74, 0x80deb1fe, 0x9bdc06a7, 0xc19bf174]
  ++ [0xe49b69c1, 0xefbe4786, 0x0fc19dc6, 0x240ca1cc, 0x2de92c6f, 0x4a7484aa, 0x5cb0a9dc, 0x76f988da,
   0x983e5152, 0xa831c66d, 0xb00327c8, 0xbf597fc7, 0xc6e00bf3, 0xd5a79147, 0x06ca6351, 0x14292967]
  ++ [0x27b70a85, 0x2e1b2138, 0x4d2c6dfc, 0x53380d13, 0x650a7354, 0x766a0abb, 0x81c2c92e, 0x92722c85,
   0xa2bfe8a1, 0xa81a664b, 0xc24b8b70, 0xc76c51a3, 0xd192e819, 0xd6990624, 0xf40e3585, 0x106aa070]
  ++ [0x19a4c116, 0x1e376c08, 0x2748774c, 0x34b0bcb5, 0x391c0cb3, 0x4ed8aa4a, 0x5b9cca4f, 0x682e6ff3,
   0x748f82ee, 0x78a5636f, 0x84c87814, 0x8cc70208, 0x90befffa, 0xa4506ceb, 0xbef9a3f7, 0xc67178f2]

/-- The eight working variables a to h, or a hash value. -/
structure Sha where
  a : Word
  b : Word
  c : Word
  d : Word
  e : Word
  f : Word
  g : Word
  h : Word
deriving DecidableEq, Repr

/-- The initial hash value, section 5.3.3. -/
def Sha.init : Sha :=
  ⟨0x6a09e667, 0xbb67ae85, 0x3c6ef372, 0xa54ff53a, 0x510e527f, 0x9b05688c, 0x1f83d9ab, 0x5be0cd19⟩

/-- One round with constant `k` and schedule word `w`. -/
def Sha.round (x : Sha) (k w : Word) : Sha :=
  let t1 := x.h + (x.e.rotateRight 6 ^^^ x.e.rotateRight 11 ^^^ x.e.rotateRight 25) + ((x.e &&& x.f) ^^^ (~~~x.e &&& x.g)) + k + w
  let t2 := (x.a.rotateRight 2 ^^^ x.a.rotateRight 13 ^^^ x.a.rotateRight 22) + ((x.a &&& x.b) ^^^ (x.a &&& x.c) ^^^ (x.b &&& x.c))
  ⟨t1 + t2, x.a, x.b, x.c, x.d + t1, x.e, x.f, x.g⟩

/-- The rounds over a list of constants; `w` holds the next 16 words of the schedule. -/
def Sha.rounds (x : Sha) (w : List Word) : List Word → Sha
  | [] => x
  | k :: ks =>
    let at' := fun (i : Nat) => w.getD i 0
    let n := ((at' 14).rotateRight 17 ^^^ (at' 14).rotateRight 19 ^^^ (at' 14 >>> 10)) + at' 9
      + ((at' 1).rotateRight 7 ^^^ (at' 1).rotateRight 18 ^^^ (at' 1 >>> 3)) + at' 0
    (x.round k (at' 0)).rounds (w.drop 1 ++ [n]) ks

/-- Big-endian words of a block. -/
def beWords : List Byte → List Word
  | a :: b :: c :: d :: r => w32 (beNat [a, b, c, d]) :: beWords r
  | _ => []

/-- One block of 64 bytes. -/
def Sha.block (x : Sha) (m : List Byte) : Sha :=
  let y := x.rounds (beWords m) shaK
  ⟨x.a + y.a, x.b + y.b, x.c + y.c, x.d + y.d, x.e + y.e, x.f + y.f, x.g + y.g, x.h + y.h⟩

/-- `n` blocks. -/
def Sha.blocks (x : Sha) (m : List Byte) : Nat → Sha
  | 0 => x
  | n + 1 => (x.block (m.take 64)).blocks (m.drop 64) n

/-- The padded message, section 5.1.1. -/
def shaPad (m : List Byte) : List Byte :=
  m ++ [0x80] ++ List.replicate ((119 - m.length % 64) % 64) 0 ++ beBytes 8 (8 * m.length)

/-- The SHA-256 digest of a message, 32 bytes. -/
def sha256 (m : List Byte) : List Byte :=
  let p := shaPad m
  let x := Sha.init.blocks p (p.length / 64)
  [x.a, x.b, x.c, x.d, x.e, x.f, x.g, x.h].flatMap (fun w => beBytes 4 w.toNat)

/-! ## The curve P-256: y² = x³ - 3x + b over the integers modulo p -/

namespace P256

def p : Nat := 0xffffffff00000001000000000000000000000000ffffffffffffffffffffffff
def n : Nat := 0xffffffff00000000ffffffffffffffffbce6faada7179e84f3b9cac2fc632551
def b : Nat := 0x5ac635d8aa3a93e7b3ebbd55769886bc651d06b0cc53b0f63bce3c3e27d2604b

/-- A point of the curve; none is the point at infinity. -/
abbrev Point := Option (Nat × Nat)

/-- The base point. -/
def base : Point :=
  some (0x6b17d1f2e12c4247f8bce6e563a440f277037d812deb33a0f4a13945d898c296,
    0x4fe342e2fe1a7f9b8ee7eb4a7c0f9e162bce33576b315ececbb6406837bf51f5)

/-- `x` to the power of the low `k` bits of `e`, modulo `m`. -/
def power (m x e : Nat) : Nat → Nat
  | 0 => 1
  | k + 1 => (if e % 2 = 1 then x else 1) * power m (x * x % m) (e / 2) k % m

/-- The inverse modulo a prime `m` of 256 bits. -/
def inverse (m x : Nat) : Nat := power m x (m - 2) 256

/-- The difference modulo p of two numbers below p. -/
def minus (x y : Nat) : Nat := (x + p - y) % p

/-- The third point of the line of slope `l` through two points, mirrored. -/
def along (l x1 y1 x2 : Nat) : Point :=
  let x3 := minus (minus (l * l % p) x1) x2
  some (x3, minus (l * minus x1 x3 % p) y1)

/-- The sum of two points. -/
def plus (a b : Point) : Point :=
  match a, b with
  | none, q => q
  | q, none => q
  | some (x1, y1), some (x2, y2) =>
    if x1 ≠ x2 then along (minus y2 y1 * inverse p (minus x2 x1) % p) x1 y1 x2
    else if y1 = y2 && y1 ≠ 0 then along ((3 * x1 * x1 + (p - 3)) * inverse p (2 * y1 % p) % p) x1 y1 x2
    else none

/-- The multiple of a point by the low `k` bits of `e`. -/
def times (e : Nat) (q : Point) : Nat → Point
  | 0 => none
  | k + 1 => plus (if e % 2 = 1 then q else none) (times (e / 2) (plus q q) k)

/-- Whether two coordinates are those of a point of the curve. -/
def onCurve (x y : Nat) : Bool := decide (x < p) && decide (y < p) && y * y % p == (x * x * x + (p - 3) * x + b) % p

/-- FIPS 186-4 section 6.4: the signature r ‖ s of a digest verifies under the public key X ‖ Y, each a big-endian string of 32
bytes. A key that is no point of the curve verifies nothing (log entry 4). -/
def verify (digest sig key : List Byte) : Bool :=
  let r := beNat (sig.take 32)
  let s := beNat (sig.drop 32)
  let x := beNat (key.take 32)
  let y := beNat (key.drop 32)
  let w := inverse n s
  within 1 r (n - 1) && within 1 s (n - 1) && onCurve x y &&
    (match plus (times (beNat digest * w % n) base 256) (times (r * w % n) (some (x, y)) 256) with
     | some (v, _) => v % n == r
     | none => false)

end P256

end Sys2Proof.Machine
end

