-- ==== Sys2Proof/Machine/Draught.lean ====
section
/-!
DEFINITION. The two draughts (07 R215 to R217): their registers, feeding, warning and expiry. The reset they lead to
stands in Reset.lean.
-/
namespace Sys2Proof.Machine
open Sys2Proof

/-- The registers of a draught: G at 0x4011_0000, P at + 0x40 (Table WG-13). -/
def dgIx : Draught → Fin 2
  | .g => 0
  | .p => 1

def dgBase (d : Draught) : Nat := 0x40110000 + 0x40 * (dgIx d).val

def State.draught (s : State) (d : Draught) : Dgt := s.dg[dgIx d]
def State.setDraught (s : State) (d : Draught) (x : Dgt) : State := { s with dg := s.dg.set (dgIx d) x }

def State.dgEn (s : State) (d : Draught) : Bool := tb (s.reg (dgBase d)) 0
def State.dgTo (s : State) (d : Draught) : Nat := fld (s.reg (dgBase d + 4)) 0 24

/-- The reset that an expiry leads to: of G always, of P with ACT = 1 (R217). -/
def State.dgResets (s : State) (d : Draught) : Bool := d == .g || tb (s.reg (dgBase d)) 2

/-- ns that a draught has counted since its load: it counts in Blaze and holds in sleep states (R215). -/
def State.dgElapsed (s : State) (d : Draught) : Nat :=
  match (s.draught d).hold with
  | some n => n
  | none => s.now - (s.draught d).load

/-- DGCNT: us remaining; 0 while the draught is not enabled. -/
def State.dgCount (s : State) (d : Draught) : Nat := if s.dgEn d then (s.draught d).tout - s.dgElapsed d / 1000 else 0

/-- The count starts again from TO; in a sleep state it holds there (R215). -/
def State.dgLoad (s : State) (d : Draught) : State :=
  s.setDraught d { s.draught d with load := s.now, tout := s.dgTo d, warned := false, hold := if s.pw.st = 0 then none else some 0 }

/-- A bit of DGSTAT set. -/
def State.dgStat (s : State) (d : Draught) (b : Nat) : State := s.modReg (dgBase d + 0x18) (fun w => setBit w b true)

/-- Whether a draught has expired: the damper's DRAUGHT cause (11 Table DF-4). -/
def State.dgExpired (s : State) : Bool := (s.draught .g).exp.isSome || (s.draught .p).exp.isSome

/-- The damper sees the draughts. -/
def State.dgQuench (s : State) : State := ({ s with dm := { s.dm with drt := s.dgExpired } } : State).sweep

/-- A draught expires: EXP, the quench, and line 30 for the P draught that only notifies (R217). -/
def State.dgExpire (s : State) (d : Draught) : State :=
  if (s.draught d).exp.isSome then s
  else
    let s1 := (s.setDraught d { s.draught d with exp := some s.now, key := false }).dgQuench
    if s.dgResets d then s1 else s1.raiseGs 30

/-- The second key completes a reload; one sooner than WMIN after the reload before is a violation (R216). -/
def State.dgReload (s : State) (d : Draught) : State :=
  let x := s.draught d
  let early := match x.prev with
    | some t => decide (s.now - t < fld (s.reg (dgBase d + 8)) 0 24 * 1000)
    | none => false
  if early then ((s.setDraught d { x with key := false }).dgStat d 1).dgExpire d
  else ((s.setDraught d { x with key := false, prev := some s.now, exp := none }).dgLoad d).dgQuench

/-- A feed key at an enabled draught that has not expired, or at a P draught that stays expired, from GS (R216, R217). -/
def State.dgKey (s : State) (d : Draught) (k : Nat) : State :=
  if k = 0x3C then s.setDraught d { s.draught d with key := true }
  else if k = 0xC3 && (s.draught d).key then s.dgReload d
  else ((s.setDraught d { s.draught d with key := false }).dgStat d 2).dgExpire d

/-- Whether a key counts: the draught is enabled, and once expired only a P draught with ACT = 0 listens, to GS. -/
def State.dgListens (s : State) (w : Who) (d : Draught) : Bool :=
  s.dgEn d && ((s.draught d).exp.isNone || (!s.dgResets d && whoGs w))

/-- Who may write a FEED register: G for the G draught, the P world and GS for the P draught (R215). -/
def dgMayFeed (w : Who) (d : Draught) : Bool :=
  match d with
  | .g => whoG w
  | .p => !whoG w || whoGs w

/-- A write to a FEED register. -/
def State.dgFeed (s : State) (w : Who) (d : Draught) (v : Word) : BusW :=
  if !dgMayFeed w d then .error 2
  else .ok (if s.dgListens w d then s.dgKey d (fld v 0 8) else s)

/-- DRAUGHT_WARNING (R216): the count reaches WARN. -/
def execDraughtWarning (d : Draught) (s : State) : Out :=
  let n := fld (s.reg (dgBase d + 0xC)) 0 24
  if s.dgEn d && s.pw.st == 0 && n != 0 && decide (s.dgCount d ≤ n) && !(s.draught d).warned && (s.draught d).exp.isNone then
    .next (((s.setDraught d { s.draught d with warned := true }).dgStat d 0).raiseAll (if d = .g then 29 else 5))
  else .next s

/-- DRAUGHT_EXPIRY (R217): the count reaches 0. -/
def execDraughtExpiry (d : Draught) (s : State) : Out :=
  if s.dgEn d && s.pw.st == 0 && s.dgCount d == 0 then .next (s.dgExpire d) else .next s

/-- A read of the DRAUGHT block: the G draught's registers are G only (R215). -/
def State.draughtRead (s : State) (w : Who) (o : Nat) : BusR :=
  let d : Draught := if o < 0x40 then .g else .p
  let a := 0x40110000 + o
  if d = .g && !whoG w then .error 2
  else if o % 0x40 = 0x14 then .ok (w32 (s.dgCount d), s)
  else if o % 0x40 = 0x18 then .ok (s.reg a ||| bitAt (s.draught d).exp.isSome 3, s)
  else .ok (s.reg a, s)

/-- Who may write the other registers: G the G draught's; GS the P draught's configuration, PS and GS its DPSTAT. -/
def dgMayWrite (w : Who) (o : Nat) : Bool :=
  if o < 0x40 then whoG w else if o = 0x58 then w.mode == .ps || whoGs w else whoGs w

/-- A written value with a reserved timeout replaced by the old one (00 R12). -/
def State.dgKeep (s : State) (d : Draught) (o : Nat) (v : Word) : Word :=
  if o % 0x40 = 4 && fld v 0 24 = 0 then s.reg (dgBase d + 4) else v

/-- A write to the DRAUGHT block; setting EN starts the count from TO. -/
def State.draughtWrite (s : State) (w : Who) (o : Nat) (v : Word) : BusW :=
  let d : Draught := if o < 0x40 then .g else .p
  if o % 0x40 = 0x10 then s.dgFeed w d v
  else if !dgMayWrite w o then .error 2
  else
    let s1 := s.putReg (0x40110000 + o) (s.dgKeep d o v) (tb (s.reg (dgBase d)) 1)
    .ok (if s1.dgEn d && !s.dgEn d then s1.dgLoad d else s1)

/-- A sleep state holds the counts (R215). -/
def State.dgHold (s : State) : State :=
  let f := fun (s : State) (d : Draught) => s.setDraught d { s.draught d with hold := some (s.dgElapsed d) }
  f (f s .g) .p

/-- On a wake the counts start again from TO (R215). -/
def State.dgWake (s : State) : State := (s.dgLoad .g).dgLoad .p

end Sys2Proof.Machine
end

