-- ==== Sys2Proof/Machine/Link.lean ====
section
/-!
DEFINITION. The ports of the link (12): training, control words, retry and failure per hop, and the LINK registers.
-/
namespace Sys2Proof.Machine
open Sys2Proof

/-- LPCFGp, LPNBp, LPERRp and LPRTTp (Table YL-9). -/
def lpcfg (p : Fin 4) : Nat := lctl + 0x40 + 0x20 * p.val
def lpnb (p : Fin 4) : Nat := lctl + 0x48 + 0x20 * p.val
def lperr (p : Fin 4) : Nat := lctl + 0x4C + 0x20 * p.val
def lprtt (p : Fin 4) : Nat := lctl + 0x50 + 0x20 * p.val

/-- A 16-bit count of LPERRp, saturating. -/
def State.portErr (s : State) (p : Fin 4) (lo : Nat) : State :=
  s.modReg (lperr p) (fun w => putF w lo 16 (min 65535 (fld w lo 16 + 1)))

/-- A NAK names the sequence number expected (R350). -/
def State.sendNak (s : State) (p : Fin 4) : State := (s.portErr p 16).sendCtl p 0x02 (s.port p).rx

/-- The port enters a state; LEVT.PORT tells (Table YL-3). -/
def State.portTo (s : State) (p : Fin 4) (st : Nat) : State :=
  (s.modPort p (fun x => { x with state := st, since := s.now })).linkEvent p.val

/-! ## Frames that cannot be sent on (R341, R342, R352) -/

/-- The types of request and of response to a request already performed. -/
def isRequest (t : Byte) : Bool := t = 0x01 || t = 0x03 || t = 0x05 || t = 0x07 || t = 0x09
def isKept (t : Byte) : Bool := t = 0x04 || t = 0x06 || t = 0x08 || t = 0x0A

/-- A local waiter of a tag learns an outcome, and the tag is freed (R357): `st` is 3 for TIMEOUT, 4 for LINKFAIL. -/
def State.endTag (s : State) (t : Nat) (u : TagUser) (st : Nat) : State :=
  match u with
  | .far h id => (s.farEnd h id (.failed (if st = 3 then 0x0C else 0x0A))).dropTag t
  | .bel e id => (s.belEnd e id (none, if st = 3 then 4 else 3)).dropTag t
  | .halo h _ => ((s.dropTag t).modHearth h (fun x => (x.itemEnd (BitVec.ofNat 8 st)).modFront (fun q => { q with remote := q.remote - 1 }))).pump h
  | .post id => match s.hub.outs.find? (fun o => o.id == id) with
    | some o => s.endOut o (BitVec.ofNat 8 st)
    | none => s.dropTag t

/-- The transaction that a frame of this device served ends with LINKFAIL (R352). -/
def State.failOwn (s : State) (f : Frame) : State :=
  match s.tagUser f.tag f.gen with
  | some u => s.endTag f.tag u 4
  | none => s

/-- A FAIL about a frame goes to a node, or ends the transaction at once where that is this device (R352). -/
def State.failTo (s : State) (dst : BitVec 14) (f : Frame) (why : Nat) : State :=
  if dst = s.nodeId then s.failOwn f else s.sendFail dst f why

/-- The barrier a token belongs to (log entry 13). -/
def tokBar (f : Frame) : Nat := if f.mod.getLsbD 0 then 2 else if f.tag = 1 then 0 else 1

/-- A barrier token of this device failed: whoever waits for that barrier no longer waits for that node (08 R244). -/
def State.failToken (s : State) (f : Frame) : State := s.loseToken f.dst (tokBar f) (fld f.addr 0 8, fld f.addr 8 8)

/-- A frame that is dropped on its way draws a FAIL to its SRC (R341), but for a FAIL (R342); a token of this device has failed. -/
def State.failFor (s : State) (f : Frame) (why : Nat) : State :=
  if f.type = 0x12 then s
  else if f.src = s.nodeId then (if f.type = 0x0B then s.failToken f else if isRequest f.type then s.failOwn f else s)
  else s.sendFail f.src f why

/-- A response to a request already performed returns to the device that gave it, which keeps it to be sent again; it is kept here where
it cannot return either (R352, R355; log entry 36). -/
def State.returnResp (s : State) (f : Frame) : State :=
  if f.src = s.nodeId then s.keepResp { f with ret := false }
  else
    let g := { f with ret := true, det := false, hops := 0 }
    match s.sendRouted none g with
    | some s1 => s1
    | none => s.keepResp g

/-- A frame whose route has failed (R341): a response already owed is returned (R355). -/
def State.noRoute (s : State) (f : Frame) : State :=
  if isKept f.type then (s.linkEvent 5).returnResp f else s.unrouted.failFor f 1

/-- Credits go back as a frame is consumed or dropped (R345). -/
def State.credBack (s : State) (p : Fin 4) (f : Frame) : State := if credArgs f = 0 then s else s.sendCtl p 0x04 (credArgs f)

/-- A waiting frame goes on its way from this device (R341); the credits of one that has none go back. -/
def State.forward (s : State) (i : QItem) : State :=
  match s.sendItem i with
  | some s1 => s1
  | none =>
    (match i.arr with
     | some p => if i.cred = 0 then s else s.sendCtl p 0x04 i.cred
     | none => s).noRoute i.frame

/-- A frame of the replay buffer of a port that failed (R352, R353). -/
def State.failFrame (s : State) (f : Frame) : State :=
  if f.type = 0x0B then (if f.src = s.nodeId then s.failToken f else s)
  else if isRequest f.type then s.failTo f.src f 3
  else if f.type = 0x02 then s.failTo f.dst f 3
  else if isKept f.type then s.returnResp f
  else if f.dst = 0x3FFF then s
  else s.dropped

/-- The frames queued for a port are routed again (R352). -/
def State.requeue (s : State) (p : Fin 4) : State :=
  let q := (s.port p).queue
  q.foldl (fun (s : State) i => if i.frame.dst = 0x3FFF then s else s.forward i) (s.modPort p (fun x => { x with queue := [] }))

/-- A port goes DOWN: frames held for a CFM are discarded (R354), queued ones take another route. One that was in training may start
again after 1 ms (R338). -/
def State.goDown (s : State) (p : Fin 4) : State :=
  let hold := if within 1 (s.portState p) 3 then s.now + 1000000 else 0
  ((s.modPort p (fun x => { x with held := [], identN := 0, stamps := [], hold := hold, busy := 0, ins := 0 })).portTo p 0).requeue p

/-! ## Training (R338, R339) -/

/-- The link PLL runs: the reference is there and the island is on (17 Table PW-1, R461, Table PW-5). -/
def State.lanesUp (s : State) : Bool := s.pw.ref && decide (s.pw.st < 2)

/-- Whether a port takes part at all. -/
def State.portOn (s : State) (p : Fin 4) : Bool := tb (s.portCfg p) 0 && s.lanesUp

/-- Training begins at DETECT, not within 1 ms of a training that failed (R338). -/
def State.train (s : State) (p : Fin 4) : State :=
  if s.portOn p && s.portState p == 0 && decide ((s.port p).hold ≤ s.now) then
    (s.modPort p (fun x => { x with train := s.now, hold := 0 })).portTo p 1
  else s

/-- DETECT (Table YL-3): transitions on both lanes of a port that is DOWN. -/
def execDetect (p : Fin 4) (s : State) : Out := .next (s.train p)

/-- LPCFGp.LPBK: the port is looped back at the PHY, hears itself and nothing from outside (Table YL-9). -/
def State.looped (s : State) (p : Fin 4) : Bool := tb (s.portCfg p) 5

/-- The IDENT word of a port (Table YL-2); how byte 6 holds port name and training state the spec leaves open. -/
def State.identArgs (s : State) : Nat :=
  s.nodeId.toNat + s.topo * 2 ^ 16 + fld (s.reg (lctl + 0xC)) 0 16 * 2 ^ 24 + Config.freeNat s.free % 256 * 2 ^ 40

/-- An IDENT word goes out. -/
def State.sendIdent (s : State) (p : Fin 4) : State := { s with free := s.free + 1 }.sendCtl p 0x08 s.identArgs

/-- A port with deskewed lanes is in IDENT and sends the four words that the far end needs (R338). A port looped back hears its own,
whose node id is its own: a MISMATCH (R339). -/
def State.toIdent (s : State) (p : Fin 4) : State :=
  let s1 := ((((s.portTo p 3).sendIdent p).sendIdent p).sendIdent p).sendIdent p
  if s.looped p then (s1.modPort p (fun x => { x with why := 3 })).portTo p 5 else s1

/-- ALIGN (Table YL-3): comma lock moves the port to ALIGN, and the lanes once deskewed to IDENT. -/
def execAlign (p : Fin 4) (s : State) : Out :=
  if !s.portOn p then .next s
  else if s.portState p = 1 then .next (s.portTo p 2)
  else if s.portState p = 2 then .next (s.toIdent p)
  else .next s

/-- LOCK_LOST (Table YL-3): lock lost for 1 us. -/
def execLockLost (p : Fin 4) (s : State) : Out :=
  if within 1 (s.portState p) 5 then .next (s.goDown p) else .next s

/-- TRAINING_RETRY (R338): a port that did not reach UP in 200 us is DOWN again, and starts again after 1 ms. -/
def execTrainingRetry (p : Fin 4) (s : State) : Out :=
  if within 1 (s.portState p) 3 then
    (if (s.port p).train + 200000 ≤ s.now then .next (s.goDown p) else .next s)
  else if (s.port p).hold ≠ 0 then .next (s.train p) else .next s

/-- The node id next to this device through a port (R334, R339). -/
def State.adjacent (s : State) (p : Fin 4) (n : Nat) : Bool :=
  let own := s.nodeId.toNat
  let r := max 1 s.ringN
  if s.topo = 2 then
    (let x := own / 128
     let y := own % 128
     if p = 0 then y < 127 && n == own + 1
     else if p = 1 then x < 127 && n == own + 128
     else if p = 2 then 0 < y && n + 1 == own
     else 0 < x && n + 128 == own)
  else if s.topo = 1 then (if p = 1 then n == (own + 1) % r else p == 3 && n == (own + r - 1) % r)
  else if p = 1 then n == own + 1 else p == 3 && n + 1 == own

/-- The first check of R339 that an IDENT word fails, 0 where it passes. -/
def State.identWhy (s : State) (p : Fin 4) (c : CtlWord) : Nat :=
  let n := ctlArg c 1 2 % 2 ^ 14
  if ctlArg c 4 2 ≠ fld (s.reg (lctl + 0xC)) 0 16 then 1
  else if ctlArg c 3 1 ≠ s.topo then 2
  else if n = s.nodeId.toNat then 3
  else if !s.adjacent p n then 4 else 0

/-- IDENT (R339): four words in a row that pass bring the port UP; a failing check is a MISMATCH, which ends when the word changes. A port
in IDENT sends its own again (log entry 51). -/
def execIdent (p : Fin 4) (c : CtlWord) (s : State) : Out :=
  let x := s.port p
  if !ctlOk 0x08 c || s.looped p then .next s
  else if s.portState p = 5 then
    (if x.ident = some c then .next s else .next ((s.modPort p (fun x => { x with ident := some c })).goDown p))
  else if s.portState p ≠ 3 then .next s
  else if s.identWhy p c ≠ 0 then
    .next ((s.modPort p (fun x => { x with why := s.identWhy p c, ident := some c })).portTo p 5)
  else
    let n := x.identN + 1
    let s0 := s.sendIdent p
    if n < 4 then .next (s0.modPort p (fun x => { x with identN := n, ident := some c }))
    else
      .next (((s0.modPort p (fun x =>
          { x with identN := n, ident := some c, cred := Vector.replicate 3 64, dcred := Vector.replicate 3 16 })).setReg
        (lpnb p) (w32 (ctlArg c 1 2 % 2 ^ 14) ||| bitAt true 31)).portTo p 4)

/-! ## Control words of a port that is UP -/

/-- A control word acts on a port that is UP and only with a good CRC-8 (R337). -/
def State.portCtl (s : State) (p : Fin 4) (ty : Nat) (c : CtlWord) (f : State → State) : Out :=
  if s.portUp p && !s.looped p && ctlOk ty c then .next (f s) else .next s

/-- WR and AT are in custody (R354). -/
def custody (f : Frame) : Bool := f.type = 0x03 || f.type = 0x05

/-- The frames up to and including a number, if it is one of those sent. -/
def ackedOf : List Sent → Nat → Option (List Sent × List Sent)
  | [], _ => none
  | a :: r, n => if a.frame.lseq = n then some ([a], r) else (ackedOf r n).map (fun x => (a :: x.1, x.2))

/-- ACK (R349, R351, R354): the frames it covers leave the replay buffer; WR and AT frames draw a CFM, and so does one
already confirmed. -/
def State.gotAckCtl (s : State) (p : Fin 4) (n : Nat) : State :=
  let x := s.port p
  match ackedOf x.replay n with
  | some (done, rest) =>
    let cs := (done.filter (fun d => custody d.frame)).map (fun d => d.frame.lseq)
    let s1 := s.modPort p (fun x => { x with replay := rest, cfmd := (cs ++ x.cfmd).take 128 })
    (cs.foldl (fun (s : State) l => s.sendCtl p 0x03 l) s1).flowOn p
  | none => if x.cfmd.contains n then s.sendCtl p 0x03 n else s

def execAck (p : Fin 4) (c : CtlWord) (s : State) : Out := s.portCtl p 0x01 c (fun s => s.gotAckCtl p (ctlArg c 1 1))

/-- The frames from a number onward are sent again, each counted in LRETRC (R351). -/
def State.resendFrom (s : State) (p : Fin 4) (n : Nat) : State :=
  let l := (s.port p).replay.dropWhile (fun d => d.frame.lseq != n)
  let s1 := s.modPort p (fun x => { x with
    replay := x.replay.take (x.replay.length - l.length) ++ l.map (fun (d : Sent) => { d with last := s.now, again := d.again + 1 })
    busy := l.foldl (fun t d => t + frameTime d.frame) (max x.busy s.now), outer := true })
  l.foldl (fun (s : State) _ => s.count (lctl + 0x28)) s1

/-- NAK (R351). -/
def execNak (p : Fin 4) (c : CtlWord) (s : State) : Out := s.portCtl p 0x02 c (fun s => s.resendFrom p (ctlArg c 1 1))

/-- CRED (R345): credits of a class or of its detour pool come back. -/
def State.gotCred (s : State) (p : Fin 4) (k n : Nat) : State :=
  if within 1 (k % 128) 3 then
    (s.modPort p (fun x =>
      let i := fin 3 (k % 128 - 1)
      if 128 ≤ k then { x with dcred := x.dcred.set i (min 16 (x.dcred[i] + n)) }
      else { x with cred := x.cred.set i (min 64 (x.cred[i] + n)) })).flowOn p
  else s

def execCred (p : Fin 4) (c : CtlWord) (s : State) : Out :=
  s.portCtl p 0x04 c (fun s => s.gotCred p (ctlArg c 1 1) (ctlArg c 2 2))

/-- TSQ (R295): answered with the time of its arrival and then with the time of the answer. -/
def execTsq (p : Fin 4) (c : CtlWord) (s : State) : Out :=
  s.portCtl p 0x05 c (fun s => (s.sendCtl p 0x06 s.phyTime).sendCtl p 0x07 s.phyTime)

/-- TSR1 (R295): the time at which the TSQ arrived. -/
def execTsr1 (p : Fin 4) (c : CtlWord) (s : State) : Out :=
  s.portCtl p 0x06 c (fun s => s.modPort p (fun x =>
    { x with stamps := match x.stamps with
        | [t1] => [t1, ctlArg c 1 6]
        | l => l }))

/-- TSR2 (R295): the time at which it was sent; with the time of its arrival the exchange is complete. -/
def execTsr2 (p : Fin 4) (c : CtlWord) (s : State) : Out :=
  s.portCtl p 0x07 c (fun s =>
    match (s.port p).stamps with
    | [t1, t2] =>
      let t3 := ctlArg c 1 6
      let t4 := s.phyTime
      (s.modPort p (fun x => { x with stamps := [t1, t2, t3, t4] })).setReg (lprtt p) (w32 (trunc 16 ((Int.ofNat t4 - Int.ofNat t1) - (Int.ofNat t3 - Int.ofNat t2))))
    | _ => s)

/-- DOWN (Table YL-3): the far end is going down. -/
def execDown (p : Fin 4) (c : CtlWord) (s : State) : Out :=
  if ctlOk 0x09 c && within 1 (s.portState p) 5 && !s.looped p then .next (s.goDown p) else .next s

/-! ## Timers (R351, R352, R354, R355) -/

/-- RESEND_TIMER (R351): 4 us after the last send of the oldest frame, unless seven resends are used up. -/
def execResendTimer (p : Fin 4) (s : State) : Out :=
  match (s.port p).replay with
  | d :: _ => if d.again < 7 && decide (d.last + 4000 ≤ s.now) then .next (s.resendFrom p d.frame.lseq) else .next s
  | [] => .next s

/-- A frame has failed: DOWN is sent, the port goes down, and every frame of the replay buffer fails (R352). -/
def State.portFail (s : State) (p : Fin 4) : State :=
  let l := (s.port p).replay
  let s1 := ((s.sendCtl p 0x09 1).modPort p (fun x => { x with replay := [] })).goDown p
  l.foldl (fun (s : State) d => s.failFrame d.frame) ((s1.count (lctl + 0x24)).linkEvent 4)

/-- LINKFAIL (R352): the timer of the oldest frame expires after its seventh resend. -/
def execLinkfail (p : Fin 4) (s : State) : Out :=
  match (s.port p).replay with
  | d :: _ => if 7 ≤ d.again && decide (d.last + 4000 ≤ s.now) then .next (s.portFail p) else .next s
  | [] => .next s

/-- ACK_RESEND (R354): the ACK of a held frame goes out again every 4 us. -/
def execAckResend (p : Fin 4) (s : State) : Out :=
  let due := (s.port p).held.filter (fun h => !h.free && decide (h.last + 4000 ≤ s.now))
  .next (due.foldl (fun (s : State) h => s.sendCtl p 0x01 h.frame.lseq)
    (s.modPort p (fun x => { x with held := x.held.map (fun (h : HeldFrame) => if !h.free && h.last + 4000 ≤ s.now then { h with last := s.now } else h) })))

/-- RESPONSE_RESEND (R355): a returned response is tried again every 36 us until it leaves. -/
def execResponseResend (n : Nat) (s : State) : Out :=
  match s.lk.resp[n]? with
  | some (f, t) =>
    if t + 36000 ≤ s.now then
      match s.sendRouted none f with
      | some s1 => .next { s1 with lk := { s1.lk with resp := s1.lk.resp.eraseIdx n } }
      | none => .next { s.linkEvent 5 with lk := { s.lk with resp := s.lk.resp.set n (f, s.now) } }
    else .next s
  | none => .next s

/-- LINK_RECONFIG (R363): every UP port goes through DOWN and training. -/
def State.reconfig (s : State) : State :=
  allPorts.foldl (fun (s : State) p => if s.portUp p then s.goDown p else s) s

def execLinkReconfig (s : State) : Out := .next s.reconfig

/-- LRTO in ns (R356). -/
def State.lrto (s : State) : Nat := fld (s.reg (lctl + 0x10)) 0 16 * 1000

/-- The waits on a remote reply that LRTO bounds: loads, atomics and bellows reads (R356, Table YL-7). -/
def State.timed (s : State) (u : TagUser) : Bool :=
  match u with
  | .far h id => (s.hearth h).far.any (fun f => f.id == id && !farIsStore f.kind)
  | .bel e id =>
    let d := (s.bel[e]).desc
    (s.bel[e]).chunks.any (fun c => c.id == id && (c.reads || fld (d.getD 4 0) 0 2 != 0) &&
      !s.isLocal (BitVec.ofNat 14 (fld (d.getD 2 0) (if c.reads then 0 else 16) 14)))
  | .post _ => false
  | .halo _ _ => false

/-- TIMEOUT (R357): LRTO expires on a remote transaction. -/
def execTimeout (tag : Nat) (s : State) : Out :=
  match s.lk.tags.find? (fun x => x.1 == tag) with
  | some (_, u, t) => if s.timed u && decide (t + s.lrto ≤ s.now) then .next (s.endTag tag u 3) else .next s
  | none => .next s

/-! ## The LINK registers (Table YL-9) -/

/-- LPSTp.STATE as it reads: until the pattern's REGS are loaded no block acts on LPCFGp.EN = 0 (00 R14), and the port is DOWN, as reset
left it. -/
def State.portShown (s : State) (p : Fin 4) : Nat := if s.pw.booted then s.portState p else (s.port p).state

/-- A read of the LINK block at offset `o`. -/
def State.linkRead (s : State) (_w : Who) (o : Nat) : BusR :=
  if o = 0x018 then .ok (w32 s.lk.tags.length ||| bitAt (!s.lk.wait.isEmpty) 16, s)
  else if within 0x040 o 0x0BF && o % 0x20 = 4 then
    (let p := fin 4 ((o - 0x040) / 0x20)
     .ok (w32 (s.portShown p + (s.port p).why * 2 ^ 4), s))
  else .ok (s.reg (lctl + o), s.clearRc (lctl + o))

/-- A written value with reserved encodings replaced by the field's old value (00 R12; R339, R356). -/
def State.linkKeep (s : State) (o : Nat) (v : Word) : Word :=
  let old := s.reg (lctl + o)
  if o = 0x004 then (if fld v 0 14 = 0x3FFF then old else v)
  else if o = 0x008 then
    (let v1 := if fld v 0 2 = 3 then putF v 0 2 (fld old 0 2) else v
     if within 3 (fld v1 16 9) 511 then v1 else putF v1 16 9 (fld old 16 9))
  else if o = 0x010 then w32 (max 36 (fld v 0 16))
  else v

/-- A port that LPCFGp.EN switches off says so and goes down; one switched on is DOWN (Tables YL-2, YL-3). A change of LPBK parts it from
what it heard (log entry 51). -/
def State.portSwitch (s0 s1 : State) (p : Fin 4) : State :=
  let was := tb (s0.portCfg p) 0
  let is := tb (s1.portCfg p) 0
  if was && !is then ((if s0.portUp p then s1.sendCtl p 0x09 0 else s1).goDown p)
  else if !was && is then s1.portTo p 0
  else if s0.looped p != s1.looped p && within 1 (s1.portState p) 5 then s1.goDown p
  else s1

/-- A write to the LINK block at offset `o`; LNODE, LTOPO and LFID take every UP port through training (R363). -/
def State.linkWrite (s : State) (w : Who) (o : Nat) (v : Word) : BusW :=
  if !whoGs w then .error 2
  else
    let s1 := s.putReg (lctl + o) (s.linkKeep o v) (tb (s.reg lctl) 8)
    if within 0x004 o 0x00C && s1.reg (lctl + o) != s.reg (lctl + o) then .ok s1.reconfig
    else if within 0x040 o 0x0BF && o % 0x20 = 0 then .ok (s.portSwitch s1 (fin 4 ((o - 0x040) / 0x20)))
    else .ok s1

end Sys2Proof.Machine
end

