-- ==== Sys2Proof/Machine/Power.lean ====
section
/-!
DEFINITION. Operating points, caps, counters, and the registers of PWR, AON and CLK (17 R459 to R467, R482 to R484).
-/
namespace Sys2Proof.Machine
open Sys2Proof

def pwr : Nat := 0x40010000
def clkB : Nat := 0x40020000
def aon : Nat := 0x40100000

def State.setPw (s : State) (p : Pw) : State := { s with pw := p }

/-- An event of PWEVT; line 13 where PWEVTEN has its bit (Table PW-11). -/
def State.pwEvent (s : State) (b : Nat) : State := s.event (pwr + 0x028) (pwr + 0x02C) 13 b

/-! ## Counters (R482, R483) -/

/-- The operating point in force of a stack (PWOPS). -/
def State.opOf (s : State) (k : Nat) : Nat := fld (s.reg (pwr + 8)) (4 * k) 3

/-- The always-on rate in Hz: the crystal's, or on the internal RC one the spec leaves open within 32 kHz +-10 % (Table PW-1). -/
def State.aonRate (s : State) : Nat := if s.pw.lf then 32768 else 28800 + Config.freeNat s.free % 6401

/-- The IEEE 1588 clock up to now (18 R487): each 40 ns of the reference, in Blaze and Banked, add 40 ns and PTPADJ; a
step joins at the next of them. -/
def State.ptpSync (s : State) : State :=
  let n := (s.now - s.host.ptpAt) / 40
  if n = 0 then s
  else if s.pw.ref && decide (s.pw.st < 2) then
    { s with host := { s.host with
        ptp := s.host.ptp + Int.ofNat n * (40 * 2 ^ 32 + s.ptpRate) + s.host.ptpUp, ptpUp := 0, ptpAt := s.host.ptpAt + 40 * n } }
  else { s with host := { s.host with ptpAt := s.host.ptpAt + 40 * n } }

/-- The counters up to now: residency in Blaze by point, and always-on cycles by state. -/
def State.accrue (s0 : State) : State :=
  let s := s0.ptpSync
  let dt := s.now - s.pw.mark
  let n := dt * s.aonRate
  let res := if s.pw.st = 0 then
      (List.finRange 8).foldl (fun (v : Vector Nat 48) k =>
        let i := fin 48 (6 * k.val + s.opOf k.val)
        v.set i (v[i] + dt)) s.pw.res
    else s.pw.res
  let i := fin 4 s.pw.st
  { s.setPw { s.pw with res := res, anow := s.pw.anow + n, ares := s.pw.ares.set i (s.pw.ares[i] + n), mark := s.now } with
    free := s.free + 1 }

/-- A count of 48 bits, saturating (00 R10). -/
def sat48 (n : Nat) : Nat := min n (2 ^ 48 - 1)

/-- Always-on cycles (ANOW). -/
def State.anow (s : State) : Nat := sat48 (s.accrue.pw.anow / 1000000000)

/-! ## The PMBus host (R463, Table PW-2; log entry 41) -/

/-- A command of the PMBus host leaves at the address and rate of APMB: kind 64, or 65 for a read; its status is the command's code. A write
carries its check byte with PEC = 1. -/
def State.pmbus (s : State) (rd : Bool) (code : Nat) (d : List Byte) : State :=
  let a := s.reg (aon + 0x02C)
  let pec := if tb a 8 && !rd then [crc8 ([BitVec.ofNat 8 (fld a 0 7 * 2), BitVec.ofNat 8 code] ++ d)] else []
  s.emit (if rd then 65 else 64) code ([BitVec.ofNat 8 (fld a 0 7), BitVec.ofNat 8 (fld a 9 1)] ++ d ++ pec)

/-- The linear format of VOUT_MODE. -/
def linearMode (m : Byte) : Bool := decide (m.toNat < 32)

/-- VOUT_COMMAND for a voltage in mV: round(V / 2^N), N the signed exponent of VOUT_MODE. -/
def voutWord (m : Byte) (mv : Nat) : Nat :=
  let n := m.toNat % 32
  if n < 16 then (2 * mv + 1000 * 2 ^ n) / (2000 * 2 ^ n) else (2 * mv * 2 ^ (32 - n) + 1000) / 2000

/-! ## The junction sensors (R466; log entry 42) -/

/-- Every 10 us the sensors are sampled: a reading is open, but below 135 degrees while the stack is not capped, since the cap comes with such a
reading. -/
def State.tjSync (s : State) : State :=
  if s.pw.booted && decide (s.pw.st < 2) && decide (s.pw.tjAt + 10000 ≤ s.now) then
    { s.setPw { s.pw with
        tjAt := s.now
        tj := Vector.ofFn (fun (k : Fin 8) => BitVec.ofNat 8
          (Config.freeNat (s.free + k.val) % (if s.pw.cap.getLsbD k.val then 0x100 else 0xC7))) } with free := s.free + 8 }
  else s

/-- The sensor of a stack reads a value. -/
def State.setTj (s : State) (k : Fin 8) (v : Nat) : State :=
  { s.setPw { s.pw with tj := s.pw.tj.set k (BitVec.ofNat 8 v) } with free := s.free + 1 }

/-! ## Operating points (R462 to R466) -/

/-- The voltage of an operating point, in mV (R462). -/
def opMv (op : Nat) : Nat := 600 + 50 * op

/-- The target of VDD_IN in Blaze and Banked with stack `k` at `op` (R462). -/
def State.vinFor (s : State) (k : Fin 8) (op : Nat) : Nat :=
  max 850 ((List.range 8).foldl (fun m j => max m (opMv (if j = k.val then op else s.opOf j))) 0 + 100)

/-- The point a request is carried out as: a capped stack runs at OP4 at most (R466). -/
def State.opEff (s : State) (k : Fin 8) (op : Nat) : Nat := if s.pw.cap.getLsbD k.val then min op 4 else op

/-- READ_VOUT after a change of target: what the regulator reports the spec leaves open (R463, PWVIN.RD). -/
def State.readVout (s : State) : State :=
  { (s.pmbus true 0x8B []).modReg (pwr + 0x018) (fun w => putF w 16 10 (Config.freeNat s.free)) with free := s.free + 1 }

/-- A new target of VDD_IN: VOUT_COMMAND is written, and READ_VOUT read. -/
def State.setVin (s : State) (v : Nat) : State :=
  if s.pw.vin = v then s
  else ((s.setPw { s.pw with vin := v }).pmbus false 0x21 (leBytes 2 (voutWord s.pw.vmode v))).readVout

/-- OPERATION, 0x80 at a start and 0x00 at entry to Cold. -/
def State.pmbOperation (s : State) (v : Byte) : State := s.pmbus false 0x01 [v]

/-- A stack runs at a new point from the hold of its clock on (R460, R464). -/
def State.opTake (s : State) (k : Fin 8) (op : Nat) : State :=
  (s.accrue.modReg (pwr + 8) (fun w => putF w (4 * k.val) 3 op)).setVin (s.vinFor k op)

/-- The queued changes are carried out one at a time, until one waits for the regulator (R464); in Ember and Cold none is (R462). -/
def State.opRun (s : State) : Nat → State
  | 0 => s
  | n + 1 =>
    if s.pw.chg.isSome || 2 ≤ s.pw.st then s
    else match s.pw.queue with
      | [] => s
      | (k, r) :: q =>
        let s1 := s.setPw { s.pw with queue := q }
        let op := s1.opEff k r
        if op = s1.opOf k.val then s1.opRun n
        else if s1.opOf k.val < op && s1.pw.vin < s1.vinFor k op then
          (s1.setPw { s1.pw with chg := some ⟨k, op, s1.pw.vin, s1.now⟩ }).setVin (s1.vinFor k op)
        else (s1.opTake k op).opRun n

/-- A request for a stack joins the queue, in place of one that is queued (R464). -/
def State.opAsk (s : State) (k : Fin 8) (op : Nat) : State :=
  let q := s.pw.queue
  let q1 := if q.any (fun x => x.1 == k) then q.map (fun x => if x.1 = k then (k, op) else x) else q ++ [(k, op)]
  s.setPw { s.pw with queue := q1 }

/-- The point requested of a stack (PWOP). -/
def State.opReq (s : State) (k : Nat) : Nat := fld (s.reg (pwr + 4)) (4 * k) 3

/-- Every request in PWOP that is not in force is carried out (R465). -/
def State.opAll (s : State) : State :=
  let s1 := (List.finRange 8).foldl (fun (s : State) k =>
    let waits := match s.pw.chg with
      | some c => c.stack == k
      | none => false
    if waits || s.pw.queue.any (fun x => x.1 == k) || s.opEff k (s.opReq k.val) != s.opOf k.val then s.opAsk k (s.opReq k.val) else s) s
  s1.opRun 16

/-- PWOP as a write leaves it: a field with a reserved point keeps its value (00 R12). -/
def opWritten (old v : Word) : Word :=
  (List.range 8).foldl (fun w k => if fld v (4 * k) 3 < 6 then putF w (4 * k) 3 (fld v (4 * k) 3) else w) old

/-- A write to PWOP (R464): no write is refused. -/
def State.pwopWrite (s : State) (v : Word) : State := (s.modReg (pwr + 4) (fun w => opWritten w v)).opAll

/-- REGULATOR_READY (R463, R465): VIN_PG is high and STATUS_WORD reads ready, within 2 ms of the VOUT_COMMAND; a regulator without the
linear format is never ready. The change that waits takes its next steps. -/
def execRegulatorReady (s : State) : Out :=
  match s.pw.chg with
  | some c =>
    if 2 ≤ s.pw.st || !linearMode s.pw.vmode || c.since + 2000000 < s.now then .next s
    else .next ((((s.setPw { s.pw with chg := none }).pmbus true 0x79 []).opTake c.stack (s.opEff c.stack c.op)).opRun 16)
  | none => .next s

/-- VFAIL (R465): not ready within 2 ms; the change is abandoned and the target before is written back. -/
def execVfail (s : State) : Out :=
  match s.pw.chg with
  | some c =>
    if s.pw.st < 2 && c.since + 2000000 ≤ s.now then .next ((((s.setPw { s.pw with chg := none }).setVin c.vin).pwEvent 4).opRun 16) else .next s
  | none => .next s

/-- CAP (R466): the sensor of a stack reads 135 degrees or more; from OP5 the stack goes to OP4. -/
def execCap (k : Fin 8) (s : State) : Out :=
  if s.pw.cap.getLsbD k.val || 2 ≤ s.pw.st then .next s
  else
    let s0 := s.setTj k (0xC7 + Config.freeNat s.free % 0x39)
    let s1 := s0.setPw { s0.pw with cap := s0.pw.cap ||| BitVec.ofNat 8 (2 ^ k.val), capAt := s0.pw.capAt.set k s.now }
    let s2 := if s1.opOf k.val = 5 then s1.opTake k 4 else s1
    .next (s2.pwEvent 1)

/-- REL (R466): below 130 degrees for 1 ms; a standing request of the stack for OP5 is carried out. -/
def execRel (k : Fin 8) (s : State) : Out :=
  if s.pw.cap.getLsbD k.val && decide (s.pw.st < 2) && decide (s.pw.capAt[k] + 1000000 ≤ s.now) then
    let s0 := s.setTj k (Config.freeNat s.free % 0xC2)
    let s1 := (s0.setPw { s0.pw with cap := s0.pw.cap &&& ~~~(BitVec.ofNat 8 (2 ^ k.val)) }).pwEvent 2
    .next (if s1.opReq k.val = 5 && s1.opOf k.val ≠ 5 then (s1.opAsk k 5).opRun 16 else s1)
  else .next s

/-- BACK_BIAS (R467): the levels are chosen by the hardware; the spec does not say how (log entry 2). -/
def execBackBias (s : State) : Out :=
  .next { s.setReg (pwr + 0x01C) (w32 (Config.freeNat s.free % 2 ^ 16)) with free := s.free + 1 }

/-! ## The registers -/

/-- PWCAP.BUSY: a change of the stack is queued or in progress. -/
def State.opBusy (s : State) (k : Nat) : Bool :=
  s.pw.queue.any (fun x => x.1.val == k) || (match s.pw.chg with
    | some c => c.stack.val == k
    | none => false)

def bitsOf (n : Nat) (f : Nat → Bool) : Word := (List.range n).foldl (fun w i => w ||| bitAt (f i) i) 0

/-- A read of the PWR block at offset `o`; a read of PWRESL latches PWRESH, Tj is as last sampled. -/
def State.pwrRead (s : State) (_w : Who) (o : Nat) : BusR :=
  if o = 0x00C then .ok (w32 s.pw.cap.toNat ||| (bitsOf 8 s.opBusy <<< 8), s)
  else if o = 0x010 || o = 0x014 then
    (let s1 := s.tjSync
     .ok (w32 (leNat ((List.range 4).map (fun i => s1.pw.tj[fin 8 (o - 0x010 + i)]))), s1))
  else if o = 0x018 then .ok (putF (s.reg (pwr + o)) 0 10 s.pw.vin ||| bitAt (s.pw.chg.isNone && s.pw.booted) 31, s)
  else if o = 0x038 || o = 0x03C then
    .ok (bitsOf 32 (fun i => s.pw.booted && (s.hearth (fin 64 ((o - 0x038) * 8 + i))).run == .held), s)
  else if 0x100 ≤ o && o % 8 = 0 then
    (let s1 := s.accrue
     let n := sat48 (s1.pw.res[fin 48 ((o - 0x100) / 8)] / 1000)
     .ok (w32 n, s1.setReg (pwr + o + 4) (w32 (n / 2 ^ 32))))
  else .ok (s.reg (pwr + o), s)

/-- CLKSTAT: the FLLs lock in Blaze and Banked and keep their lock without the reference; the link PLL does not (R461). -/
def State.clkstat (s : State) : Word :=
  let on := s.pw.booted && decide (s.pw.st < 2)
  bitAt s.pw.ref 0 ||| bitAt s.pw.lf 1 ||| (if on then ones 2 8 else 0) ||| bitAt on 10 ||| bitAt (on && s.pw.ref) 11 ||| bitAt s.dm.bk 12

def State.clkRead (s : State) (_w : Who) (o : Nat) : BusR := .ok (if o = 0 then s.clkstat else s.reg (clkB + o), s)

def State.clkWrite (s : State) (w : Who) (o : Nat) (v : Word) : BusW :=
  if whoGs w then .ok (s.putReg (clkB + o) v false) else .error 2

/-- A read of the AON block at offset `o`: a low word latches its high word. -/
def State.aonRead (s : State) (_w : Who) (o : Nat) : BusR :=
  if o = 0x01C then
    (let s1 := s.accrue
     let n := sat48 (s1.pw.anow / 1000000000)
     .ok (w32 n, s1.setReg (aon + 0x020) (w32 (n / 2 ^ 32))))
  else if within 0x030 o 0x04F && o % 8 = 0 then
    (let s1 := s.accrue
     let n := sat48 (s1.pw.ares[fin 4 ((o - 0x030) / 8)] / 1000000000)
     .ok (w32 n, s1.setReg (aon + o + 4) (w32 (n / 2 ^ 32))))
  else .ok (s.reg (aon + o), s.clearRc (aon + o))

def State.aonWrite (s : State) (w : Who) (o : Nat) (v : Word) : BusW :=
  if whoGs w then .ok (s.putReg (aon + o) v (tb (s.reg aon) 8)) else .error 2

end Sys2Proof.Machine
end

