-- ==== Sys2Proof/Machine/Reset.lean ====
section
/-!
DEFINITION. Sleep and wake, supply monitors, and the resets with what survives them (17 R461, R468 to R481).
-/
namespace Sys2Proof.Machine
open Sys2Proof

/-! ## Device resets (R477 to R481) -/

/-- What the spec's Table PW-10 keeps of the memory: the flash always; after a reset that is no start from Cold all
but the working copies and the sample pages. -/
def keptCell (cold : Bool) (k : Nat) : Bool :=
  if 0x200000000 ≤ k && k < 0x300000000 then true
  else if cold then false
  else within 0x40051000 k 0x40052FFF || (!(within 0x110000000 k 0x11FFFFFFF) && !(within 0x40000000 k 0x4FFFFFFF))

/-- Header V := 0 in every frame (Table PW-10): bit 16 of word 1 is bit 0 of its byte 6. -/
def State.clearV (s : State) : State :=
  allHearths.foldl (fun (s : State) h =>
    (List.finRange 3).foldl (fun (s : State) f => s.setByte (frameKey f h 6) (s.byte (frameKey f h 6) &&& 0xFE)) s) s

/-- Registers held in the always-on island: the AON block, PSLOT.PREF, STLOG and STCNT. -/
def aonHeld (a : Nat) : Bool := within 0x40100000 a 0x4010FFFF || a == 0x400B0010 || a == 0x400C0018 || a == 0x400C001C

/-- Every buffered line of program store is written into its bank: all hearths are in reset (06 R181). -/
def State.patchAll (s : State) : State := (List.finRange 8).foldl (fun (s : State) k => s.patchFlush k) s

/-- A new challenge of the debug unlock (16 R453, R458): the spec does not give its value (log entry 2). -/
def State.renewChallenge (s : State) : State :=
  { s with sec := { s.sec with chal := Vector.ofFn (fun i => Config.freeWord (s.free + i.val)) }, free := s.free + 4 }

/-- The state of a device reset: everything but the always-on island and what Table PW-10 keeps. `por` resets the
always-on island too; `cold` is a start from Cold. -/
def State.afterReset (s0 : State) (por cold : Bool) : State :=
  let s := if cold then s0 else s0.patchAll
  let r := State.reset
  let p := s.pw
  let s1 : State :=
    { r with
      mem := s.mem.filter (fun c => keptCell cold c.1)
      regs := s.regs.filter (fun c => !por && aonHeld c.1)
      now := s.now, nextId := s.nextId, free := s.free, pending := s.pending
      dm := { Damper.reset s.now with pin := s.dm.pin, pinAct := s.dm.pin, bow := s.dm.bow, bowAct := s.dm.bow, bk := s.dm.bk, rate := s.dm.rate }
      sec := { Sec.reset with cycle := s.sec.cycle, rev := s.sec.rev }
      host := { HostSt.reset with gpin := s.host.gpin, vbus := s.host.vbus, ir := if por then 0x01 else s.host.ir, out := s.host.out, ptpAt := s.now }
      lk := { Link.reset with ports := Vector.ofFn (fun (i : Fin 4) => { Port.reset with
        cut := (s.port i).cut
        ctlOut := (s.port i).ctlOut ++ (if s.portUp i && !por then [ctlWord 0x09 2] else []) }) }
      pw := { Pw.reset with
        rst := some s.now, mark := s.now, ref := !por && p.ref, lf := !por && p.lf, afeLow := p.afeLow
        res := if por then Pw.reset.res else p.res, anow := if por then 0 else p.anow, ares := if por then Pw.reset.ares else p.ares } }
  let s2 := (if cold then s1 else s1.clearV).setAfe { s1.afe with off := p.afeLow }
  s2.renewChallenge.sweep

/-- A device reset of the kind whose bit of RSTCAUSE is `bit` (R477, R478). -/
def State.deviceReset (s : State) (bit : Nat) : State :=
  let por := bit == 0
  let s1 := s.accrue.afterReset por (por || bit == 6)
  if por then s1 else s1.modReg (aon + 4) (fun w => setBit w bit true)

/-- DEVICE_RESET (R478): a reset holds the islands for 10 us, with RESET latched; then start-up may run. -/
def execDeviceReset (s : State) : Out :=
  match s.pw.rst with
  | some t => .next ({ s.setPw { s.pw with rst := none } with now := max s.now (t + 10000), td := 0 } : State).sweep
  | none => .next s

/-! ## HRST (R479) -/

/-- The tags of a hearth's far accesses are free; replies that still come are late (R479, 12 R357). -/
def State.dropFar (s : State) (h : Hid) : State :=
  (s.lk.tags.filter (fun t => match t.2.1 with
    | .far g _ => g == h
    | _ => false)).foldl (fun (s : State) t => s.dropTag t.1) s

/-- A hearth is reset: its fulling unit, mailboxes, doorbells, locks and ungranted requests (R248, R375, R376, R377,
R381, R397), then its registers; it stays held or starts at START of the active entry table (R426). Its place in the
flue tree stays (09 R259). -/
def State.hearthReset (s : State) (h : Hid) (hold : Bool) : State :=
  let s1 := ((s.fulStop h).unwaitTag (.far h 0)).dropFar h
  let s2 := ((s1.clearReceiver h).resetSender h).freeLocks h.val
  let s3 := s2.withdrawReqs (fun r => r.who.hearth == some h)
  let x : Hearth := { Hearth.reset with
    run := if hold then .held else .running, pc := s3.entStart s3.blksel h, gsh := s3.entGsh s3.blksel h
    redN := (s3.hearth h).redN, redOld := (s3.hearth h).redOld }
  let m : BitVec 64 := BitVec.ofNat 64 (2 ^ h.val)
  ({ s3.setHearth h x with hrst := if hold then s3.hrst ||| m else s3.hrst &&& ~~~m } : State).sweep.patchSettle (stackOf h)

/-- A write to PWHRST (Table PW-11); during a device reset it has no effect (R480). -/
def State.pwhrst (s : State) (v : Word) : State := if s.pw.booted then s.hearthReset (fin 64 (fld v 0 6)) (tb v 8) else s

/-! ## Sleep (R468 to R470) -/

/-- Why a stack denies, with the hearth: 1 one that does not wait, 2 one with a busy buffer or OTT (Table PW-6). -/
def State.stackDenies (s : State) (k : Fin 8) : Option (Nat × Nat) :=
  let busy (x : Hearth) : Bool := match x.wait with
    | .sleep _ => false
    | _ => x.run == .running
  match (hearthsOf k).find? (fun h => busy (s.hearth h)) with
  | some h => some (1, h.val)
  | none => match (hearthsOf k).find? (fun h => !(s.hearth h).sb.isEmpty || (s.hearth h).ottUsed != 0) with
    | some h => some (2, h.val)
    | none => none

/-- Why the system island denies (Table PW-6). -/
def State.sysDenies (s : State) : Option (Nat × Nat) :=
  if (List.finRange 2).any (fun e => (s.bel[e]).phase != .idle) then some (4, 0)
  else if s.pat.stage.isSome then some (5, 0)
  else if tb (s.reg 0x400B003C) 0 then some (6, 0)
  else if tb (s.reg destat) 0 then some (7, 0)
  else if s.pat.qcmd.isSome then some (8, 0)
  else none

/-- What island `i` of Table PW-6 answers for a state. -/
def State.denies (s : State) (i : Nat) : Option (Nat × Nat) :=
  if i ≤ 8 then s.stackDenies (fin 8 (i - 1))
  else if i = 10 then
    (if !s.lk.tags.isEmpty || allPorts.any (fun p => !(s.port p).replay.isEmpty) then some (3, 0) else none)
  else if i = 12 then s.sysDenies
  else none

/-- The last island asked: the stacks alone for Banked. -/
def lastIsland (st : Nat) : Nat := if st = 1 then 8 else 12

/-- Every port goes down (R461, Table PW-8, Table PW-10). -/
def State.portsDown (s : State) : State :=
  allPorts.foldl (fun (s : State) p => if within 1 (s.portState p) 5 then s.goDown p else s) s

/-- What an island does as it stops: the AFE converts no more, the ports go down, the damper latches SLEEP. A stack's clock, and those of the
link and the system, stand while the request has come past them (`State.stackRuns`, `State.targetHeld`). -/
def State.stopIsland (s : State) (i : Nat) : State :=
  if i = 9 then s.setAfe { s.afe with off := true }
  else if i = 10 then s.portsDown
  else if i = 11 then ({ s with dm := { s.dm with slp := true } } : State).sweep
  else s

/-- The front end starts again: every channel settles before it counts (15 R423). -/
def State.afeRestart (s : State) : State :=
  s.setAfe { s.afe with off := s.pw.afeLow, ch := s.afe.ch.map (fun (x : AfeCh) => { x with skip := true, v := false }) }

/-- An entry is given up: the islands run again, REFUSER and PWEVT.REF (R470). -/
def State.refuseSleep (s : State) (i why h : Nat) : State :=
  let s0 := s.setPw { s.pw with sleep := none, edges := [] }
  let s1 := if 9 < i then s0.afeRestart else s0
  ((({ s1 with dm := { s1.dm with slp := false } } : State).sweep).setReg (pwr + 0x024)
    (w32 (i + why * 2 ^ 8 + (if why ≤ 2 then h * 2 ^ 16 else 0)))).pwEvent 0

/-! ## Wake (R471, R472) -/

/-- Whether a source of Table PW-7 wakes from a state. -/
def wakesFrom (n st : Nat) : Bool :=
  if n = 0 || n = 1 || within 4 n 7 then st != 0
  else if n = 16 then st == 2
  else if n = 17 then st == 1 || st == 2
  else if n = 18 || n = 19 then st == 1
  else false

/-- A source is a level, or an edge: GPIO0 to GPIO3 as AWKCFG says (Table PW-7, Table PW-12). -/
def State.wakeLevel (s : State) (n : Nat) : Bool :=
  n == 0 || n == 1 || n == 16 || (within 4 n 7 && !tb (s.reg (aon + 0x014)) (4 + n))

/-- What must hold of a source that the state itself shows. -/
def State.wakeHolds (s : State) (n : Nat) : Bool :=
  if n = 1 then tb (s.reg (aon + 0x028)) 31 && decide ((s.reg (aon + 0x024)).toNat + fld (s.reg (aon + 0x028)) 0 16 * 2 ^ 32 ≤ s.anow)
  else if within 4 n 7 then !s.wakeLevel n || tb s.host.gpin (n - 4) == tb (s.reg (aon + 0x014)) (8 + n)
  else if n = 16 then allPorts.any (fun p => tb (s.portCfg p) 0)
  else if n = 17 then s.pw.edges.any (fun e => e.1 == 17)
  else if n = 19 then allHearths.any (fun h => (s.hearth h).icpend &&& s.reg (pwr + 0x040) != 0)
  else true

/-- Doorbell 63 of the GS supervisor hearth is rung. -/
def State.ringGs (s : State) : State :=
  s.mapHearths (fun _ x => if x.gsh then { x with doorbell := x.doorbell ||| BitVec.ofNat 64 (2 ^ 63) } else x)

/-- What a wake from Ember restores: supply, front end, operating-point changes that waited, and disciplined time from the always-on counter;
the ports train again by DETECT. -/
def State.fromEmber (s : State) : State :=
  let n := s.pw.anow / 1000000000 - s.pw.entry
  let s1 := { s with td := s.td + n * 1000000000 / 32768 / 8 * 8, dm := { s.dm with slp := false }, xb := { s.xb with off := 0 }, afe := { s.afe with edge := false } }
  (((s1.lockLost.afeRestart.setVin (s1.vinFor 0 (s1.opOf 0))).pmbus true 0x79 []).opRun 16).sweep

/-- The end of a wake from Banked or Ember by the sources of `m` (R472). -/
def State.wakeUp (s : State) (m : Word) : State :=
  let st := s.pw.st
  let s1 := s.accrue
  let s2 := (s1.setPw { s1.pw with st := 0, edges := [] }).dgWake
  let s3 := if st = 2 then s2.fromEmber else s2
  (((s3.setReg (aon + 0x018) m).setReg (aon + 0x010) (w32 st)).pwEvent 3).ringGs

/-- The device wakes by the sources of `m`: from Cold it is a start from Cold (Table PW-9). -/
def State.wakeBy (s : State) (m : Word) : State :=
  if s.pw.st = 3 then ((s.deviceReset 6).setReg (aon + 0x018) m).setReg (aon + 0x010) 3 else s.wakeUp m

/-- Source `n` of Table PW-7 comes: in a sleep state that it wakes from it wakes the device; while a sleep request is under way it is
held (R471). -/
def State.wakeEvent (s : State) (n : Nat) : State :=
  if s.pw.st = 0 then
    (if s.pw.sleep.isSome && s.wakeHolds n && n != 17 then s.setPw { s.pw with edges := s.pw.edges ++ [(n, s.now)] } else s)
  else if wakesFrom n s.pw.st && tb (s.reg (aon + 0x014)) n && s.wakeHolds n then s.wakeBy (w32 (2 ^ n))
  else s

/-- The time before the end of an entry in which an edge is lost (R471): 6 reference cycles, or 2 always-on cycles. -/
def edgeLoss (st : Nat) : Nat := if st = 1 then 240 else 61036

/-- Whether source `n` wakes the device as its entry completes (R471): a level that is there, or an edge that came early enough. What
came during the entry at a level that the state does not show is taken to be there still (log entry 43). -/
def State.wakesAtEnd (s : State) (n : Nat) : Bool :=
  wakesFrom n s.pw.st && tb (s.reg (aon + 0x014)) n &&
    (if s.wakeLevel n then (if n = 0 || n = 16 then s.pw.edges.any (fun e => e.1 == n) else s.wakeHolds n)
     else s.pw.edges.any (fun e => e.1 == n && decide (e.2 + edgeLoss s.pw.st < s.now)))

/-! ## Entry into sleep (R470) -/

/-- A change of operating point that waits for the regulator goes back to the front of its queue (log entry 44). -/
def Pw.requeue (p : Pw) : Pw :=
  match p.chg with
  | some c => { p with chg := none, queue := if p.queue.any (fun x => x.1 == c.stack) then p.queue else (c.stack, c.op) :: p.queue }
  | none => p

/-- The device enters a sleep state; a wake source that R471 keeps wakes it at once. -/
def State.enterSleep (s : State) (st : Nat) : State :=
  let s1 := s.accrue.dgHold
  let s2 := s1.setPw { s1.pw with sleep := none, st := st, entry := s1.pw.anow / 1000000000 }
  let s3 := if st = 1 then s2 else if st = 2 then (s2.setPw s2.pw.requeue).setVin 650
    else (s2.setPw { s2.pw.requeue with vin := 0 }).pmbOperation 0x00
  let m := bitsOf 20 s3.wakesAtEnd
  if m = 0 then s3 else s3.wakeBy m

/-- The islands are asked in order; one that has not accepted within SLPTO denies (R470). -/
def State.sleepAsk (s : State) : Nat → State
  | 0 => s
  | n + 1 =>
    match s.pw.sleep with
    | none => s
    | some (st, i, t) =>
      match s.denies (i + 1) with
      | some (why, h) =>
        if t + fld (s.reg (pwr + 0x020)) 8 16 * 1000 ≤ s.now then s.refuseSleep (i + 1) why h else s
      | none =>
        let s1 := s.stopIsland (i + 1)
        if i + 1 = lastIsland st then s1.enterSleep st
        else (s1.setPw { s1.pw with sleep := some (st, i + 1, s1.now) }).sleepAsk n

/-- A write to PWSLP (R469): with GO in Blaze, and none in progress, the request begins. -/
def State.pwslpWrite (s : State) (v : Word) : State :=
  let s1 := if s.pw.sleep.isSome && tb v 31 then s else s.putReg (pwr + 0x020) v false
  let st := fld (s1.reg (pwr + 0x020)) 0 2
  if tb v 31 && s1.pw.sleep.isNone && s1.pw.st = 0 && st != 0 then
    (s1.setPw { s1.pw with sleep := some (st, 0, s1.now), edges := [] }).sleepAsk 13
  else s1.sleepAsk 13

/-! ## Wake commands (R471 to R473) -/

/-- WAKE (R472). -/
def execWake (n : Nat) (s : State) : Out := .next (s.wakeEvent n)

/-- AON_ALARM (Table PW-7, bit 1). -/
def execAonAlarm (s : State) : Out := .next (s.wakeEvent 1)

/-- WAKEFAIL (R473): the fourth attempt failed, at the regulator or with `fll` at an FLL; the device falls to Cold. -/
def execWakefail (fll : Bool) (s : State) : Out :=
  if s.pw.st = 2 || s.pw.st = 3 then
    let s1 := s.accrue
    .next (((s1.setPw { s1.pw with st := 3, vin := 0 }).pmbOperation 0x00).setReg (aon + 0x00C) (bitAt true 0 ||| bitAt fll 1))
  else .next s

/-! ## Supply monitors (R474, R475) -/

/-- BOW (Table PW-8): VDD_IO below 3.00 V for 0.5 us. -/
def execBow (s : State) : Out :=
  .next ((({ s with dm := { s.dm with bow := true, bowAct := true } } : State).latch 6 none (fun _ => true)).raiseGs 31 |>.count (aon + 8))

/-- BOW_RECOVERY (R475): VDD_IO rises above 3.05 V; the 100 us run from here. -/
def execBowRecovery (s : State) : Out :=
  .next (if s.dm.bow then { s with dm := { s.dm with bow := false, bowAt := s.dnow } } else s)

/-- VDD_AFE_LOW (Table PW-8): conversions stop. -/
def execVddAfeLow (s : State) : Out := .next ((s.setPw { s.pw with afeLow := true }).setAfe { s.afe with off := true })

/-- VDD_AFE_RECOVERY: conversions resume. -/
def execVddAfeRecovery (s : State) : Out :=
  .next (let s1 := s.setPw { s.pw with afeLow := false }
         if s1.pw.st = 2 then s1 else s1.setAfe { s1.afe with off := false })

/-- VDD_LNK_LOW (Table PW-8): every port goes DOWN. How its return shows, the spec does not say: ports then train by
DETECT. -/
def execVddLnkLow (s : State) : Out := .next s.portsDown

/-! ## The reference and the always-on crystal (R461) -/

/-- An event of CLKEVT (Table PW-13). -/
def State.clkEvent (s : State) (b : Nat) : State := s.modReg (clkB + 4) (fun w => setBit w b true)

/-- Every PWM output is held off (11 R330). -/
def State.pwmOff (s : State) : State :=
  allOuts.foldl (fun (s : State) o => if s.oMode o = 3 then s.pwmSet o false none else s) s.settle

/-- REFERENCE_LOSS (R461): REFLOST, ports down, the damper on its backup oscillator, LOCK cleared. -/
def execReferenceLoss (s : State) : Out :=
  if s.pw.ref then
    let s0 := s.ptpSync.lockLost
    let s1 := ((s0.clkEvent 0).clkEvent 2).setPw { s0.pw with ref := false }
    .next ((s1.portsDown.setBk true).pwmOff.sweep)
  else .next s

/-- REFERENCE_RETURN (R461): the FLLs correct again and the damper leaves its backup oscillator. -/
def execReferenceReturn (s : State) : Out :=
  if s.pw.ref then .next s
  else .next ((s.ptpSync.setPw { s.pw with ref := true }).setBk false).sweep

/-- LF_LOSS (R461): the always-on crystal fails. -/
def execLfLoss (s : State) : Out :=
  if s.pw.lf then .next ((s.accrue.setPw { s.accrue.pw with lf := false }).clkEvent 1) else .next s

/-- LF_RETURN (R461): the always-on crystal is back. -/
def execLfReturn (s : State) : Out :=
  if s.pw.lf then .next s else .next (s.accrue.setPw { s.accrue.pw with lf := true })

/-! ## FAULT_N (R476) -/

/-- Whether FAULT_N is asserted. -/
def State.faultN (s : State) : Bool :=
  s.damperFault || !s.pw.booted || s.pw.hold || tb (s.reg (aon + 0x00C)) 0 || !s.pw.ref

/-! ## Writes to the PWR block (R482) -/

/-- A write to the PWR block at offset `o`; the reset that PWSWR asks for follows the transaction. -/
def State.pwrWrite (s : State) (w : Who) (o : Nat) (v : Word) : BusW :=
  if !whoGs w then .error 2
  else if o = 0x004 then .ok (s.pwopWrite v)
  else if o = 0x020 then .ok (s.pwslpWrite v)
  else if o = 0x030 then .ok (if v = 0x5352 then s.setPw { s.pw with ask := some 4 } else s)
  else if o = 0x034 then .ok (s.pwhrst v)
  else .ok (s.putReg (pwr + o) v (tb (s.reg pwr) 8))

end Sys2Proof.Machine
end

