-- ==== Sys2Proof/Machine/Pattern.lean ====
section
/-!
DEFINITION. Patterns and slots (16 R428 to R438, R458), staging, flash commands, arming of a reblock (R441 to R449), and
the PATTERN registers (Table PA-11). The loading at start-up stands in Boot.lean, the swap in Tick.lean.
-/
namespace Sys2Proof.Machine
open Sys2Proof

def patB : Nat := 0x400B0000

def State.setPat (s : State) (p : Pat) : State := { s with pat := p }

/-! ## Reading a slot (R429, R432, R433) -/

/-- Flash offset of slot A or B. -/
def slotBase (b : Bool) : Nat := if b then 0x1000000 else 0

/-- Word at offset `o` of the pattern in a slot. -/
def State.patW (s : State) (b : Bool) (o : Nat) : Word := s.rd32 (flashKey (slotBase b + o))

def State.patLen (s : State) (b : Bool) : Nat := (s.patW b 8).toNat
def State.patNsec (s : State) (b : Bool) : Nat := fld (s.patW b 0xC) 0 6
def State.patKey (s : State) (b : Bool) : Nat := fld (s.patW b 0xC) 8 8
def State.patLc (s : State) (b : Bool) : Nat := fld (s.patW b 4) 16 8

/-- A section: its place in the table, type, index, flags, size and offset in bytes. -/
structure Sect where
  ix    : Nat
  ty    : Nat
  index : Nat
  flags : Nat
  size  : Nat
  off   : Nat
deriving DecidableEq, Repr

/-- The sections from entry `i` on, laid out from offset `o` without gaps. -/
def State.sectsFrom (s : State) (b : Bool) (i o : Nat) : Nat → List Sect
  | 0 => []
  | n + 1 =>
    let w := s.patW b (0x40 + 4 * i)
    let z := 16 * fld w 12 20
    ⟨i, fld w 0 4, fld w 4 6, fld w 10 2, z, o⟩ :: s.sectsFrom b (i + 1) (o + z) n

def State.sects (s : State) (b : Bool) : List Sect := s.sectsFrom b 0 0x100 (s.patNsec b)

/-! ## Checks of stages 3 and 4 (Tables PA-3 to PA-5) -/

/-- The latency classes a stepping accepts (06 R178). -/
def lcOk (n : Nat) : Bool := n == 1 || (n == 2 && Config.stepping != .a1)

/-- Whether a slot exists on the flash (R428). -/
def slotThere (b : Bool) : Bool :=
  Config.sfdpOk && decide ((if b then 0x2000000 else 0x1000000) ≤ Config.flashBytes)

/-- The SIZE of a section against Table PA-4. -/
def Sect.sizeOk (x : Sect) : Bool :=
  match x.ty with
  | 1 => x.size == 64
  | 2 => x.size == 512
  | 3 => decide (x.size ≤ 0x60000)
  | 4 => decide (x.size ≤ 0x7FE00)
  | 5 => x.size == 0x1000
  | 6 => x.size == 0x1000
  | 7 => decide (x.size ≤ (64 - x.index) * 0x50000)
  | 8 => decide (x.size ≤ 0x1000)
  | 9 => decide (x.size ≤ 0x200000)
  | 10 => decide (x.size ≤ 0x10000)
  | _ => false

/-- INDEX and FLAGS against Table PA-4; a type without an INDEX may hold any. -/
def Sect.fieldsOk (x : Sect) : Bool :=
  if x.ty = 3 then decide (x.index < 8) && x.flags == 0
  else if x.ty = 6 then x.flags == 0 || (x.flags == 1 && x.index == 0)
  else x.flags == 0

/-- Whether two sections are one too many together (Table PA-4, Count). -/
def Sect.clash (x y : Sect) : Bool :=
  x.ty == y.ty &&
    (if x.ty = 3 then x.index == y.index
     else if x.ty = 6 then x.flags == 1 || y.flags == 1 || x.index == y.index
     else if x.ty = 7 then
       decide (x.index * 0x50000 < y.index * 0x50000 + y.size) && decide (y.index * 0x50000 < x.index * 0x50000 + x.size)
     else true)

/-- The first section that breaks the table, given those before it. -/
def badSect : List Sect → List Sect → Option Nat
  | _, [] => none
  | seen, x :: r => if x.sizeOk && x.fieldsOk && !seen.any (fun y => x.clash y) then badSect (x :: seen) r else some x.ix

/-- KEY, ENTRY and DAMP occur exactly once. -/
def sectsThere (xs : List Sect) : Bool := [1, 2, 5].all (fun t => xs.any (fun x => x.ty == t))

/-- The first failure of stages 3 and 4 with its offset, in the order of Table PA-3 (R432, R433, R438). -/
def State.headErr (s : State) (b : Bool) : Option (Nat × Nat) :=
  let len := s.patLen b
  let xs := s.sects b
  if !slotThere b then some (0x01, 0)
  else if s.patW b 0 ≠ 0x54505842 then some (0x02, 0)
  else if fld (s.patW b 4) 0 16 ≠ 1 then some (0x03, 4)
  else if !lcOk (s.patLc b) then some (0x04, 4)
  else if fld (s.patW b 4) 24 8 ≠ 0 then some (0x03, 4)
  else if len % 16 ≠ 0 || !within 256 len 0x1000000 then some (0x05, 8)
  else if !within 1 (s.patNsec b) 32 then some (0x06, 0xC)
  else if 3 ≤ s.patKey b || s.sec.rev.getLsbD (s.patKey b) then some (0x07, 0xC)
  else if fld (s.patW b 0xC) 16 16 ≠ 0 then some (0x03, 0xC)
  else match (List.range 10).find? (fun i => s.patW b (0x18 + 4 * i) != 0) with
    | some i => some (0x03, 0x18 + 4 * i)
    | none => match badSect [] xs with
      | some i => some (0x06, 0x40 + 4 * i)
      | none =>
        if !sectsThere xs then some (0x06, 0x40)
        else match (List.range 32).find? (fun i => decide (s.patNsec b ≤ i) && s.patW b (0x40 + 4 * i) != 0) with
          | some i => some (0x03, 0x40 + 4 * i)
          | none => if len ≠ 256 + xs.foldl (fun (n : Nat) (x : Sect) => n + x.size) 0 then some (0x05, 8) else none

/-! ## Checks of stage 6 (R434 to R436) -/

/-- Bytes of a section in its slot. -/
def State.sectBytes (s : State) (b : Bool) (x : Sect) : List Byte := s.bytes (flashKey (slotBase b + x.off)) x.size

def State.keyBytes (s : State) (b : Bool) : List Byte :=
  match (s.sects b).find? (fun x => x.ty == 1) with
  | some x => s.sectBytes b x
  | none => []

/-- The signed data: header bytes 0x00 to 0xBF, then every section. -/
def State.signed (s : State) (b : Bool) : List Byte :=
  s.bytes (flashKey (slotBase b)) 0xC0 ++ (s.sects b).flatMap (fun x => s.sectBytes b x)

/-- The signature r, s of a pattern. -/
def State.patSig (s : State) (b : Bool) : List Byte := s.bytes (flashKey (slotBase b + 0xC0)) 64

/-- The entry table at a key is well formed (R435): its other bits are 0, and exactly one entry has GSH = 1, with RUN = 1. -/
def State.entriesOk (s : State) (k : Nat) : Bool :=
  let w := fun (h : Hid) (i : Nat) => s.rd32 (k + 8 * h.val + 4 * i)
  allHearths.all (fun h => !tb (w h 0) 31 && w h 1 &&& 0xFFFE8000 == 0)
    && decide ((allHearths.filter (fun h => tb (w h 1) 16)).length = 1)
    && allHearths.all (fun h => !tb (w h 1) 16 || tb (w h 0) 15)

/-- Every hearth with RUN = 1 lies in a stack that has a PROG section (R435). -/
def State.runsOk (s : State) (k : Nat) (prog : BitVec 8) : Bool :=
  allHearths.all (fun h => !tb (s.rd32 (k + 8 * h.val)) 15 || prog.getLsbD (stackOf h).val)

/-- The stacks with a PROG section. -/
def progOf (xs : List Sect) : BitVec 8 :=
  (xs.filter (fun x => x.ty == 3)).foldl (fun (m : BitVec 8) x => m ||| BitVec.ofNat 8 (2 ^ x.index)) 0

/-- The registers with "see text" fields that the REGS section loads, by block: offset, number, stride and the fields
(R436, R458; the register tables of 07 and 10 to 18). In rows that are "see text" as a whole LK is a field of its own use: that of
ETHCTL, USBCTL, I2CCFG and UCFGu is taken to be none that REGS loads, so a pair that sets it fails (DESIGN CHOICE, log entry 55). -/
def seeText : List (Nat × Nat × Nat × Word) :=
  [(0x40010004, 1, 4, 0x77777777),
   (0x40040000, 1, 4, 0x1F), (0x40040004, 2, 4, 0x1FFFF), (0x4004000C, 2, 4, 0x1FFFFF), (0x40040014, 1, 4, 0x3FFFFFF7),
   (0x40040018, 2, 4, 0xFFFFFFFF), (0x40050000, 1, 4, 0xFFFF0003), (0x40060000, 1, 4, 0x3FF), (0x40060004, 1, 4, 0xFFFFFF),
   (0x40060008, 1, 4, 0xFFFF), (0x40060040, 8, 4, 0x1FFFFFF), (0x40070020, 8, 4, 7), (0x40070040, 1, 4, 6)]
  ++ [(0x40070060, 1, 4, 0xFFF), (0x40070100, 48, 4, 0x1337), (0x40080000, 1, 4, 7), (0x40080004, 1, 4, 0x3FFF),
   (0x40080008, 1, 4, 0x1FF0003), (0x4008000C, 2, 4, 0xFFFF), (0x40080014, 1, 4, 0x3FFF), (0x40080040, 4, 0x20, 0x3F),
   (0x40080100, 8, 12, 0xFFFFF000), (0x40080104, 8, 12, 0xFFFFF000), (0x40080108, 8, 12, 0x3F)]
  ++ [(0x40090000, 1, 4, 3), (0x40090004, 1, 4, 0xFFFFFF), (0x40090100, 96, 4, 0xBF), (0x40090280, 32, 4, 0x1F3FFFFF), (0x400C0020, 1, 4, 0xF),
   (0x400D0000, 1, 4, 0x3F), (0x400D0004, 1, 4, 0xFFFFFFFF), (0x400D0008, 1, 4, 0xFFFF), (0x400E0000, 1, 4, 7),
   (0x400E0004, 1, 4, 0xFFFFFFFF), (0x400F0080, 1, 4, 3), (0x400F0100, 2, 0x40, 0xFFFFF), (0x40110000, 1, 4, 3),
   (0x40110004, 3, 4, 0xFFFFFF), (0x40110040, 1, 4, 7), (0x40110044, 3, 4, 0xFFFFFF)]

/-- The REGS-loaded fields of the register at an address. -/
def seeMask (a : Nat) : Option Word :=
  (seeText.find? (fun r => decide (r.1 ≤ a) && decide ((a - r.1) % r.2.2.1 = 0) && decide ((a - r.1) / r.2.2.1 < r.2.1))).map
    (fun r => r.2.2.2)

/-- In DEPLOYED the TAMPER_N enable is a field of Table PA-13, which no pair may name. -/
def State.seeMask (s : State) (a : Nat) : Option Word :=
  (Machine.seeMask a).map (fun m => if a = 0x400C0020 && s.sec.cycle == 2 then m &&& 0xE else m)

/-- The pairs of the REGS section. -/
def State.regPairs (s : State) (b : Bool) : List (Nat × Word) :=
  match (s.sects b).find? (fun x => x.ty == 8) with
  | some x => (List.range (x.size / 8)).map (fun i => ((s.patW b (x.off + 8 * i)).toNat, s.patW b (x.off + 8 * i + 4)))
  | none => []

/-- A pair keeps the rules of R436. -/
def State.pairOk (s : State) (p : Nat × Word) : Bool :=
  match s.seeMask p.1 with
  | some m => p.2 &&& ~~~m == 0
  | none => false

/-- The word of a DAMP section at an offset. -/
def State.dampW (s : State) (b : Bool) (o : Nat) : Word :=
  match (s.sects b).find? (fun x => x.ty == 5) with
  | some x => s.patW b (x.off + o)
  | none => 0

/-- The key of the entry table in its section. -/
def State.entryAt (s : State) (b : Bool) : Nat :=
  match (s.sects b).find? (fun x => x.ty == 2) with
  | some x => flashKey (slotBase b + x.off)
  | none => 0

/-- The offset of the section of a type in its pattern. -/
def State.sectOff (s : State) (b : Bool) (ty : Nat) : Nat :=
  match (s.sects b).find? (fun x => x.ty == ty) with
  | some x => x.off
  | none => 0

/-- The place in the list of the first pair that breaks R436. -/
def State.badPair (s : State) (ps : List (Nat × Word)) : Nat := ps.findIdx (fun p => !s.pairOk p)

/-- The first failure of stage 6, and where it was found: at the section it concerns, for the signature at the header's field, for the
register list at its pair (R434 to R436, R438; DEDUCED, log entry 52). -/
def State.bodyErr (s : State) (b : Bool) : Option (Nat × Nat) :=
  if sha256 (s.keyBytes b) ≠ Config.otpKey (s.patKey b) then some (0x07, s.sectOff b 1)
  else if !P256.verify (sha256 (s.signed b)) (s.patSig b) (s.keyBytes b) then some (0x08, 0xC0)
  else if !setValid (s.dampW b) then some (0x09, s.sectOff b 5)
  else if !(s.regPairs b).all s.pairOk then some (0x0A, s.sectOff b 8 + 8 * s.badPair (s.regPairs b))
  else if !(s.entriesOk (s.entryAt b) && s.runsOk (s.entryAt b) (progOf (s.sects b))) then some (0x0B, s.sectOff b 2)
  else none

/-- The first failure of a slot of which one reading met a flash error at byte `f`: the header is read before its checks, the sections
before those of stage 6. With it, whether stage 5 had begun (R437, R438; log entry 5). -/
def State.slotFails (s : State) (b : Bool) (f : Option Nat) : Option ((Nat × Nat) × Bool) :=
  let at' := fun (lo hi : Nat) => f.any (fun n => decide (lo ≤ n) && decide (n < hi))
  if slotThere b && at' 0 256 then some ((0x0D, f.getD 0), false)
  else match s.headErr b with
    | some e => some (e, false)
    | none => if at' 256 (s.patLen b) then some ((0x0D, f.getD 0), true) else (s.bodyErr b).map (fun e => (e, true))

/-! ## Loading sections (Table PA-4) -/

/-- Where the block stores lie that a load writes: bank per stack, block RAM, damper set, material table. -/
structure Place where
  bank : BitVec 8
  bram : Bool
  dset : Bool
  mtab : Bool
deriving DecidableEq, Repr

/-- The program-bank selector, which a reblock switches before its stacks receive it (R446). -/
def State.bankSel (s : State) : BitVec 8 :=
  (List.finRange 8).foldl (fun (m : BitVec 8) k => if (s.stack k).due then m ^^^ BitVec.ofNat 8 (2 ^ k.val) else m) s.bank

/-- The shadow of the active block. -/
def State.shadow (s : State) : Place := ⟨~~~s.bankSel, !s.blksel, !s.dsel, !s.mtab⟩

/-- The place of a material table of a hearth. -/
def matKey (h : Hid) (t : Bool) : Nat := feltKey h (0x48000 + (if t then 0x1000 else 0))

/-- A section is written to its destination; those of FELT, SRAM and SECR at start-up only. -/
def State.loadSect (s : State) (b : Bool) (p : Place) (boot : Bool) (x : Sect) : State :=
  let bs := s.sectBytes b x
  match x.ty with
  | 2 => s.setBytes (bramBase p.bram) bs
  | 3 => s.setBytes (progKey (fin 8 x.index) (if p.bank.getLsbD x.index then 1 else 0) 0) bs
  | 4 => s.setBytes (bramBase p.bram + 0x200) bs
  | 5 => s.setBytes (setBase p.dset) bs
  | 6 =>
    if x.flags = 1 then allHearths.foldl (fun (s : State) h => s.setBytes (matKey h p.mtab) bs) s
    else s.setBytes (matKey (fin 64 x.index) p.mtab) bs
  | 7 => if boot then s.setBytes (0x20000000 + x.index * 0x50000) bs else s
  | 9 => if boot then s.setBytes 0x10000000 bs else s
  | 10 => if boot then s.setBytes 0x12000000 bs else s
  | _ => s

def State.loadAll (s : State) (b : Bool) (p : Place) (boot : Bool) : State :=
  (s.sects b).foldl (fun (s : State) x => s.loadSect b p boot x) s

/-! ## Staging (R441, R442) -/

/-- `n` bytes of a store become unspecified (log entry 2). -/
def State.freeBytes (s : State) (k : Nat) : Nat → State
  | 0 => s
  | n + 1 => ({ s.setByte k ((Config.freeWord s.free).setWidth 8) with free := s.free + 1 } : State).freeBytes (k + 1) n

/-- The contents of the shadow stores after a run that failed. -/
def State.freeShadow (s : State) : State :=
  let p := s.shadow
  let s1 := (List.finRange 8).foldl (fun (s : State) k =>
    s.freeBytes (progKey k (if p.bank.getLsbD k.val then 1 else 0) 0) 0x60000) s
  let s2 := (s1.freeBytes (bramBase p.bram) 0x80000).freeBytes (setBase p.dset) 0x1000
  allHearths.foldl (fun (s : State) h => s.freeBytes (matKey h p.mtab) 0x1000) s2

def rbst : Nat := patB + 0x03C

/-- RBST.ARMED. -/
def State.armed (s : State) : Bool := tb (s.reg rbst) 0

/-- A KSP STAGE that waits for the run is answered: OK, or REFUSED with the code (18 Table HS-2). -/
def State.stageAnswer (s : State) (code : Nat) : State :=
  if s.host.kstg then
    { s with host := { s.host with kstg := false, out := s.host.out ++ [(0xB2, if code = 0 then 0 else 4, [BitVec.ofNat 8 code])] } }
  else s

/-- PSTGS after a failure: ERR and its code; a header refused for its class leaves no class to arm with (06 R178). While a reblock is
armed its shadow stores stand as they are (11 R305, Table PA-6). -/
def State.stageFail (s : State) (code : Nat) : State :=
  let s1 := s.setPat { s.pat with stage := none, staged := false, slc := if code = 4 then 0 else s.pat.slc }
  ((if s1.armed then s1 else s1.freeShadow).modReg (patB + 0x024) (fun w => setBit (putF w 8 8 code) 2 true)).stageAnswer code

/-- PSTGC.GO: a run on a slot begins; STAGED is cleared. While one runs the write has no effect. -/
def State.stageGo (s : State) (b : Bool) : State :=
  if s.pat.stage.isSome then s else s.setPat { s.pat with stage := some b, staged := false }

/-- PSTGC.ABORT ends a run with code 0x0D. -/
def State.stageAbort (s : State) : State := if s.pat.stage.isSome then s.stageFail 0x0D else s

/-- A write to PSTGC. -/
def State.pstgc (s : State) (v : Word) : State :=
  if tb v 2 then s.stageAbort else if tb v 0 then s.stageGo (tb v 1) else s

/-- The end of a staging run: the slot is checked and loaded into the shadow, or the run fails. One that would write to the shadow of
an armed reblock, which Table PA-6 and 11 R305 refuse, ends with code 0x0D (DESIGN CHOICE, log entry 53). -/
def State.stageEnd (s0 : State) (b : Bool) : State :=
  let s := { s0 with free := s0.free + 1 }
  match s.slotFails b (Config.flashFail s0.free) with
  | some e => s.stageFail e.1.1
  | none =>
    if s.armed then s.stageFail 0x0D
    else
      let s1 := s.loadAll b s.shadow false
      ((s1.setPat { s1.pat with stage := none, staged := true, sslot := b, slc := s.patLc b, sprog := progOf (s.sects b) }).setReg
        (patB + 0x018) (s.patW b 0x14)).stageAnswer 0

/-- STAGING_DONE (R441). -/
def execStagingDone (s : State) : Out :=
  match s.pat.stage with
  | some b => .next (s.stageEnd b)
  | none => .next s

/-- A write to a shadow store clears STAGED (R442). -/
def State.unstage (s : State) : State := s.setPat { s.pat with staged := false }

/-! ## Arming (R444, R448, R449) -/

/-- ABT with its WHY; line 15 (Table PA-8). -/
def State.rbAbort (s : State) (why : Nat) : State :=
  (s.modReg rbst (fun w => setBit (putF w 4 4 why) 3 true)).raiseAll 15

/-- The epoch written to RBEL and RBEH. -/
def State.rbE (s : State) : Nat := (s.reg (patB + 0x030)).toNat + fld (s.reg (patB + 0x034)) 0 16 * 2 ^ 32

/-- The shadow entry table is valid: against the staged PROG sections where it was staged. -/
def State.shadowEntries (s : State) : Bool :=
  let k := bramBase (!s.blksel)
  s.entriesOk k && (!s.pat.staged || s.runsOk k s.pat.sprog)

/-- The first condition of an arm that does not hold (R444). -/
def State.armWhy (s : State) : Option Nat :=
  if !s.pat.staged && !(s.sec.cycle == 1 && s.pat.slc != 0) then some 1
  else if s.pat.stage.isSome then some 2
  else if s.rbE < s.ep.cur + 2 then some 3
  else if !s.setOk (!s.dsel) then some 4
  else if !s.shadowEntries then some 5
  else none

/-- RBCTL.ARM, with FAB. -/
def State.rbArm (s : State) (fab : Bool) : State :=
  match s.armWhy with
  | some why => s.rbAbort why
  | none =>
    ((s.setPat { s.pat with armE := s.rbE }).modReg rbst
      (fun w => setBit (setBit (setBit w 0 true) 1 false) 8 fab)).raiseAll 15

/-- RBCTL.DISARM (R448). -/
def State.rbDisarm (s : State) : State :=
  if s.armed then (s.modReg rbst (fun w => w &&& ~~~3)).rbAbort 10 else s

/-- Disciplined time of the tick edge that starts epoch `n`, at the P in force. -/
def State.edgeOf (s : State) (n : Nat) : Nat := s.ep.edge + (n - s.ep.cur) * s.ep.per * 1000

/-- COMMIT is accepted: armed for the E written, and not later than RBCUT before its edge (R449). -/
def State.rbCommitOk (s : State) : Bool :=
  s.armed && s.rbE == s.pat.armE && decide (s.td + fld (s.reg (patB + 0x048)) 0 20 * 1000 ≤ s.edgeOf s.pat.armE)

/-- RBCTL.COMMIT; one too late, or without an arm, ends with KIND 5. -/
def State.rbCommit (s : State) : BusW :=
  if s.rbCommitOk then .ok (s.modReg rbst (fun w => setBit w 1 true)) else .error 5

/-- A write to RBCTL: ARM first, then COMMIT, then DISARM. -/
def State.rbctl (s : State) (v : Word) : BusW :=
  let s1 := if tb v 0 then s.rbArm (tb v 3) else s
  let r := if tb v 2 then s1.rbCommit else .ok s1
  match r with
  | .ok s2 => .ok (if tb v 1 then s2.rbDisarm else s2)
  | .error k => .error k

/-! ## Flash commands (R443) -/

/-- The flash address of a command, none where it has no address bytes: [9:8] = 0, 1, 2 for 0, 3, 4 of them
(log entry 38). -/
def State.qAddr (s : State) (c : Word) : Option Nat :=
  let a := (s.reg (patB + 0x064)).toNat
  if fld c 8 2 = 0 then none else if fld c 8 2 = 1 then some (a % 2 ^ 24) else some a

/-- A command that would alter the flash is refused: chip erase always, and any within the pattern of the active slot
but in Hold. -/
def State.qRefused (s : State) (c : Word) : Bool :=
  let op : Byte := BitVec.ofNat 8 (fld c 0 8)
  let lo := slotBase s.pat.aslot
  op == 0x60 || op == 0xC7
    || ((Config.flashErase op != 0 || Config.flashProgram op) && !s.pw.hold &&
      (s.qAddr c).any (fun a => decide (lo ≤ a) && decide (a < lo + s.patLen s.pat.aslot)))

/-- A written PQCMD with reserved encodings replaced by the field's old value (00 R12). -/
def State.pqKeep (s : State) (v : Word) : Word :=
  let old := s.reg (patB + 0x060)
  let v1 := if fld v 8 2 = 3 then putF v 8 2 (fld old 8 2) else v
  if 64 < fld v1 16 7 then putF v1 16 7 (fld old 16 7) else v1

/-- A write to PQCMD; GO starts the command unless one is under way. -/
def State.pqcmd (s : State) (v0 : Word) : State :=
  let v := s.pqKeep v0
  let s1 := s.setReg (patB + 0x060) (v &&& 0x107F03FF)
  if !tb v 31 || s.pat.qcmd.isSome then s1
  else if s1.qRefused v then s1.modReg (patB + 0x068) (fun w => setBit w 2 true)
  else s1.setPat { s1.pat with qcmd := some v }

/-- Data bytes of a command, at most 64. -/
def qLen (c : Word) : Nat := min 64 (fld c 16 7)

/-- The bytes of PQDATA. -/
def State.qData (s : State) (n : Nat) : List Byte :=
  (List.range n).map (fun i => BitVec.ofNat 8 (lane (s.reg (patB + 0x080 + 4 * (i / 4))) (i % 4) 8))

/-- A byte into PQDATA. -/
def State.qPut (s : State) (i : Nat) (b : Byte) : State :=
  s.modReg (patB + 0x080 + 4 * (i / 4)) (fun w => putF w (8 * (i % 4)) 8 b.toNat)

/-- Bytes programmed into the flash: a bit can only be cleared (log entry 5). -/
def State.flashProg (s : State) (a : Nat) : List Byte → State
  | [] => s
  | b :: r => (s.setByte (flashKey a) (s.byte (flashKey a) &&& b)).flashProg (a + 1) r

/-- The bytes that a command returns: the flash's own for the read opcodes 0x03 and 0x13 (log entry 5), else open. -/
def State.qReturn (s : State) (op : Byte) (a : Option Nat) (err : Bool) (n : Nat) : State :=
  (List.range n).foldl (fun (s : State) i =>
    match a with
    | some k =>
      if !err && (op == 0x03 || op == 0x13) then s.qPut i (s.byte (flashKey (k + i)))
      else { s.qPut i ((Config.freeWord s.free).setWidth 8) with free := s.free + 1 }
    | none => { s.qPut i ((Config.freeWord s.free).setWidth 8) with free := s.free + 1 }) s

/-- What a flash command does when it completes: erase, program, or the data that the flash returns. After a controller
error what it did is open; without address bytes nothing is erased or programmed (log entry 38). -/
def State.qEffect (s : State) (c : Word) (err : Bool) : State :=
  let op : Byte := BitVec.ofNat 8 (fld c 0 8)
  let z := Config.flashErase op
  if z ≠ 0 then
    (match s.qAddr c with
     | none => s
     | some a => if err then s.freeBytes (flashKey (a - a % z)) z else s.fill (flashKey (a - a % z)) 0xFF z)
  else if Config.flashProgram op then
    (match s.qAddr c with
     | none => s
     | some a => if err then s.freeBytes (flashKey a) (qLen c) else s.flashProg a (s.qData (qLen c)))
  else if tb c 28 then s
  else s.qReturn op (s.qAddr c) err (qLen c)

/-- QSPI_COMMAND_DONE (R443, Table PA-11): BUSY clears; ERR on a controller error. -/
def execQspiCommandDone (err : Bool) (s : State) : Out :=
  match s.pat.qcmd with
  | some c =>
    .next ((s.setPat { s.pat with qcmd := none }).qEffect c err |>.modReg (patB + 0x068) (fun w => if err then setBit w 1 true else w))
  | none => .next s

/-! ## The PATTERN registers (R456) -/

/-- The densest read mode that the flash supports, in the order 1-4-4, 1-1-4, 1-2-2, 1-1-2, 1-1-1 (R428); without a valid SFDP
signature the controller stays in 1-1-1, in which it read the table (DEDUCED, log entry 5). -/
def readMode : Nat := if Config.sfdpOk then (List.finRange 4).findIdx (fun m => Config.flashModes m) else 4

/-- PBST as it reads: the read mode once start-up has come to its stage 3. -/
def State.pbst (s : State) : Word :=
  bitAt s.pat.bslot 0 ||| bitAt s.pw.hold 1 ||| bitAt (s.reg (patB + 0x008) != 0) 2 ||| bitAt (s.reg (patB + 0x00C) != 0) 3
    ||| (if s.pw.booted then w32 (readMode * 16) else 0) ||| bitAt s.pat.aslot 8

def State.pblk (s : State) : Word := w32 s.bankSel.toNat ||| bitAt s.blksel 8 ||| bitAt s.dsel 9 ||| bitAt s.mtab 10

/-- A read of the PATTERN block at offset `o`: any master may. -/
def State.patternRead (s : State) (_w : Who) (o : Nat) : BusR :=
  if o = 0x004 then .ok (s.pbst, s)
  else if o = 0x024 then .ok (s.reg (patB + o) ||| bitAt s.pat.stage.isSome 0 ||| bitAt s.pat.staged 1, s)
  else if o = 0x050 then .ok (s.pblk, s)
  else if o = 0x068 then .ok (s.reg (patB + o) ||| bitAt s.pat.qcmd.isSome 0, s)
  else .ok (s.reg (patB + o), s)

/-- A write to the PATTERN block at offset `o`, from GS. -/
def State.patternWrite (s : State) (w : Who) (o : Nat) (v : Word) : BusW :=
  if !whoGs w then .error 2
  else if o = 0x020 then .ok (s.pstgc v)
  else if o = 0x038 then s.rbctl v
  else if o = 0x060 then .ok (s.pqcmd v)
  else .ok (s.putReg (patB + o) v (tb (s.reg patB) 8))

end Sys2Proof.Machine
end

