-- ==== Sys2Proof/Machine/Secure.lean ====
section
/-!
DEFINITION. Life cycle, debug, tamper and the wipe of secure SRAM (16 R451 to R455; 14 R401), and the SEC registers
(Table PA-12).
-/
namespace Sys2Proof.Machine
open Sys2Proof

def secB : Nat := 0x400C0000

def State.setSec (s : State) (x : Sec) : State := { s with sec := x }

/-! ## Who acts (14 Table XB-2) -/

def belB : Nat := 0x400A0000

/-- A register of engine `e` (Table XB-8). -/
def belReg (e : Fin 2) (o : Nat) : Nat := belB + 0x40 * e.val + o

/-- The world and level of an engine, BCFGe. -/
def State.belG (s : State) (e : Fin 2) : Bool := tb (s.reg (belReg e 0)) 0

/-- The mode of a world and a level. -/
def modeFor (g sv : Bool) : Mode := if g then (if sv then .gs else .gu) else if sv then .ps else .pu

/-- An engine as a crossbar master (R403). -/
def State.belWho (s : State) (e : Fin 2) : Who := ⟨fin 15 (9 + e.val), none, modeFor (s.belG e) (tb (s.reg (belReg e 0)) 1)⟩

/-- Debug in force: 0 none, 1 P world, 2 full (SDBGST). -/
def State.debugLevel (s : State) : Nat :=
  if s.sec.cycle = 2 then (if s.sec.unlk then 1 else 0) else if s.sec.cycle = 4 then 0 else 2


/-- A master with the world and level that its row of Table XB-2 gives it. -/
def State.carried (s : State) (w : Who) : Who :=
  let m := w.master.val
  if m = 0 then { w with hearth := none, mode := .gs }
  else if m ≤ 8 then w
  else if m = 9 || m = 10 then s.belWho (fin 2 (m - 9))
  else if m = 12 then { w with hearth := none, mode := modeFor (tb (s.reg (xbar + 0x18)) 0) (tb (s.reg (xbar + 0x18)) 1) }
  else if m = 13 then { w with hearth := none, mode := modeFor (tb (s.reg (xbar + 0x18)) 2) (tb (s.reg (xbar + 0x18)) 3) }
  else if m = 14 then { w with hearth := none, mode := if s.debugLevel = 2 then .gs else if s.debugLevel = 1 then .ps else .pu }
  else { w with hearth := none }

/-! ## The wipe of secure SRAM (14 R401) -/

/-- The burst that secure SRAM holds ends with KIND 5 as the wipe starts; beats it has accepted are wiped. Which beat it had come to is
open (log entry 2). -/
def State.wipeBurst (s : State) : State :=
  match s.xb.busy[2] with
  | none => s
  | some r =>
    let k := Config.freeNat s.free % ((r.addr % 16 + r.op.size + 15) / 16)
    let a := if k = 0 then r.addr else r.addr - r.addr % 16 + 16 * k
    let s1 := { s with free := s.free + 1, xb := { s.xb with busy := s.xb.busy.set 2 none } }
    (s1.xerr (s.carried r.who) (some 2) 5 a r.op.isWr r.op.isAt).xbEnd r.origin (.error 5)

/-- A wipe starts: from here no byte reads but as 0, and target 2 refuses until it completes. -/
def State.wipeStart (s : State) : State :=
  let s1 := s.wipeBurst
  (s1.clearRange 0x12000000 0x12010000).setSec { s1.sec with wipe := some s1.now }

/-- WIPE_COMPLETE (14 R401): SWST.WIPING clears. -/
def execWipeComplete (s : State) : Out :=
  .next (if s.sec.wipe.isSome then s.setSec { s.sec with wipe := none } else s)

/-- SKEY0 to SKEY7 and the debug unlock are cleared. -/
def State.clearKeys (s : State) : State :=
  (List.range 8).foldl (fun (s : State) i => s.setReg (secB + 0x0A0 + 4 * i) 0) (s.setSec { s.sec with unlk := false })

/-! ## The life cycle (R451) -/

/-- The steps of the life cycle: one forward, or to SCRAPPED. -/
def cycleStep (a b : Nat) : Bool := decide (a < 4) && (b == a + 1 || b == 4)

/-- The life cycle advances: secure SRAM is wiped, the keys and the unlock are cleared. -/
def State.advance (s : State) (n : Nat) : State :=
  let s1 := s.clearKeys
  (s1.setSec { s1.sec with cycle := n, adv := none }).wipeStart

/-- A write to SLCADV: the second of two equal ones by one master within 1 ms advances; any other counts as a first. -/
def State.slcadv (s : State) (w : Who) (v : Word) : State :=
  let n := fld v 0 16 - 0xB700
  let twin := match s.sec.adv with
    | some (x, u, t) => x.master == w.master && x.hearth == w.hearth && u == v && decide (s.now ≤ t + 1000000)
    | none => false
  if !(within 0xB700 (fld v 0 16) 0xB704 && cycleStep s.sec.cycle n) then s.setSec { s.sec with adv := none }
  else if twin then s.advance n
  else s.setSec { s.sec with adv := some (w, v, s.now) }

/-! ## Debug (R452, R453, Table PA-7) -/

/-- The SDBG and SDBGKEY registers. -/
def isSdbg (o : Nat) : Bool := o == 0x030 || within 0x040 o 0x093 || within 0x0C0 o 0x0FF

/-- What debug reaches in the SEC block whatever it carries: those registers, and reads of SLC, SUIDL and SUIDH, in
every state but SCRAPPED. -/
def State.debugReaches (s : State) (o : Nat) (wr : Bool) : Bool :=
  s.sec.cycle != 4 && (isSdbg o || (!wr && (o == 0x000 || o == 0x00C || o == 0x010)))

/-- The byte strings of the unlock registers: byte 4i in bits [7:0] of word i. -/
def State.secBytes (s : State) (o n : Nat) : List Byte :=
  (List.range n).flatMap (fun i => leBytes 4 (s.reg (secB + o + 4 * i)).toNat)

/-- The challenge with the identity. -/
def State.unlockText (s : State) : List Byte :=
  s.sec.chal.toList.flatMap (fun w => leBytes 4 w.toNat) ++ leBytes 4 (Config.suid 0).toNat ++ leBytes 4 (Config.suid 1).toNat

/-- The key and the signature of an unlock hold. -/
def State.unlockOk (s : State) : Bool :=
  let key := s.secBytes 0x0C0 16
  sha256 key == Config.otpKey 3 && P256.verify (sha256 s.unlockText) (s.secBytes 0x050 16) key

/-- SDBGGO: a verification starts; once LOCKD is set the write is refused. -/
def State.sdbggo (s : State) (v : Word) : BusW :=
  if !tb v 0 || s.sec.busy then .ok s else if s.sec.lockd then .error 5 else .ok (s.setSec { s.sec with busy := true })

/-- UNLOCK_RESULT (R453): UNLK, or a failure; the third sets LOCKD. The challenge is renewed. -/
def execUnlockResult (s : State) : Out :=
  if !s.sec.busy then .next s
  else
    let n := s.sec.fails + 1
    let x := if s.unlockOk then { s.sec with busy := false, unlk := true }
      else { s.sec with busy := false, fails := n, lockd := decide (3 ≤ n) }
    .next (s.setSec x).renewChallenge

/-! ## Tamper (R454, R455) -/

/-- The enable of a source; in DEPLOYED that of TAMPER_N reads 1. -/
def State.stcfg (s : State) : Word := s.reg (secB + 0x020) ||| bitAt (s.sec.cycle == 2) 0

/-- Any active source keeps the TAMPER cause (11 Table DF-4). -/
def State.tamperHeld (s : State) : Bool := s.sec.tamper != 0

/-- An enabled source has become active. -/
def State.tampered (s : State) (n : Fin 4) : State :=
  let s1 := s.clearKeys.wipeStart
  let s2 := (({ s1 with dm := { s1.dm with tamp := true } } : State).sweep).raiseGs 31
  (s2.modReg (secB + 0x018) (fun w => setBit w n.val true)).count (secB + 0x01C)

/-- TAMPER (R455): source `n` becomes active. -/
def execTamper (n : Fin 4) (s : State) : Out :=
  if s.sec.tamper.getLsbD n.val then .next s
  else
    let s1 := s.setSec { s.sec with tamper := s.sec.tamper ||| BitVec.ofNat 4 (2 ^ n.val) }
    .next (if tb s1.stcfg n.val then s1.tampered n else s1)

/-- TAMPER_INACTIVE (R454): a source ends; with the last the TAMPER cause is gone. -/
def execTamperInactive (n : Fin 4) (s : State) : Out :=
  let s1 := s.setSec { s.sec with tamper := s.sec.tamper &&& ~~~(BitVec.ofNat 4 (2 ^ n.val)) }
  .next (if s1.tamperHeld then s1 else { s1 with dm := { s1.dm with tamp := false } })

/-! ## The SEC registers (R457) -/

/-- SDBGST: the debug in force, which the life-cycle fuses tell once stage 1 of start-up is over (R458), UNLK, LOCKD and the failures. -/
def State.sdbgst (s : State) : Word :=
  (if s.pw.booted then w32 s.debugLevel else 0) ||| bitAt s.sec.unlk 2 ||| bitAt s.sec.lockd 3 ||| w32 (min 3 s.sec.fails * 16)

/-- Write-only registers, which read 0: the signature, SKEY and SDBGKEY. -/
def secHidden (o : Nat) : Bool := within 0x050 o 0x08F || within 0x0A0 o 0x0FF

/-- The value of a register of the block; the fuses are readable once stage 1 of start-up is over (R458). -/
def State.secValue (s : State) (o : Nat) : Word :=
  if secHidden o || (!s.pw.booted && (o == 0x000 || o == 0x008 || o == 0x00C || o == 0x010)) then 0
  else if o = 0x000 then w32 s.sec.cycle
  else if o = 0x008 then w32 s.sec.rev.toNat
  else if o = 0x00C then Config.suid 0
  else if o = 0x010 then Config.suid 1
  else if o = 0x014 then w32 s.sec.tamper.toNat
  else if o = 0x020 then s.stcfg
  else if o = 0x028 then bitAt s.sec.wipe.isSome 0
  else if o = 0x030 then s.sdbgst
  else if within 0x040 o 0x04F then s.sec.chal[fin 4 ((o - 0x040) / 4)]
  else s.reg (secB + o)

/-- Whether the master is debug reaching what it may reach in any state. -/
def State.debugIn (s : State) (w : Who) (o : Nat) (wr : Bool) : Bool := w.master == 14 && s.debugReaches o wr

/-- A read of the SEC block at offset `o`: G only. -/
def State.secRead (s : State) (w : Who) (o : Nat) : BusR :=
  if whoG w || s.debugIn w o false then .ok (s.secValue o, s) else .error 2

/-- A write to the SEC block at offset `o`: GS only. In DEPLOYED the bit of TAMPER_N in STCFG ignores it (R454). -/
def State.secWrite (s : State) (w : Who) (o : Nat) (v : Word) : BusW :=
  if !(whoGs w || s.debugIn w o true) then .error 2
  else if o = 0x004 then .ok (s.slcadv w v)
  else if o = 0x008 then .ok (s.setSec { s.sec with rev := s.sec.rev ||| BitVec.ofNat 4 (fld v 0 4) })
  else if o = 0x024 then .ok (if v = 0x5749 then s.wipeStart else s)
  else if o = 0x090 then s.sdbggo v
  else if o = 0x020 && s.sec.cycle = 2 then .ok (s.putReg (secB + o) (setBit v 0 (tb (s.reg (secB + o)) 0)) (tb (s.reg (secB + 0x100)) 8))
  else .ok (s.putReg (secB + o) v (tb (s.reg (secB + 0x100)) 8))

end Sys2Proof.Machine
end

