-- ==== Sys2Proof/Machine/Host.lean ====
section
/-!
DEFINITION. The registers of the host and service ports (18 Table HS-3), I2C0, the UARTs, GPIO, MDIO, the IEEE 1588 clock
and JTAG (18 R485 to R488, R495 to R499). Rings, DFU and KSP stand in Service.lean.
-/
namespace Sys2Proof.Machine
open Sys2Proof

def ethB : Nat := 0x400D0000
def usbB : Nat := 0x400E0000
def giuB : Nat := 0x400F0000

/-- An event of ETHEVT or of USBEVT; line 28 where enabled (R499). -/
def State.ethEvent (s : State) (b : Nat) : State := s.event (ethB + 0x1C) (ethB + 0x20) 28 b
def State.usbEvent (s : State) (b : Nat) : State := s.event (usbB + 0x0C) (usbB + 0x10) 28 b

/-! ## The IEEE 1588 clock (R487) -/

/-- The clock in whole ns, of 48-bit seconds. -/
def State.ptpNs (s : State) : Nat := (s.ptpSync.host.ptp / 2 ^ 32 % (2 ^ 48 * 1000000000)).toNat

/-- A write to PTPSTEP, or with `sec` to PTPSTEPS: a signed step at the next 40 ns. -/
def State.ptpStep (s : State) (sec : Bool) (v : Word) : State :=
  let s1 := s.ptpSync
  let d : Int := v.toInt * (if sec then 1000000000 else 1) * 2 ^ 32
  s1.setHost { s1.host with ptpUp := s1.host.ptpUp + d }

/-! ## The Ethernet registers -/

/-- A write to ETHMDIO; GO starts a transaction unless one is under way: kind 4 of what leaves, its status 1 for a read, its bytes PHY,
register and, for a write, the data. -/
def State.ethmdio (s : State) (v : Word) : State :=
  let s1 := s.putReg (ethB + 0x028) v false
  if tb v 31 && !s.host.mdio then
    (s1.setHost { s1.host with mdio := true }).emit 4 (fld v 26 1)
      ([BitVec.ofNat 8 (fld v 21 5), BitVec.ofNat 8 (fld v 16 5)] ++ (if tb v 26 then [] else leBytes 2 (fld v 0 16)))
  else s1

/-- MDIO_DONE (R485): GO clears; a read leaves its data in place. -/
def execMdioDone (d : Half) (s : State) : Out :=
  if s.host.mdio then
    .next ((s.setHost { s.host with mdio := false }).modReg (ethB + 0x028) (fun w => if tb w 26 then putF w 0 16 d.toNat else w))
  else .next s

/-- A read of the ETH block at offset `o`. -/
def State.ethRead (s : State) (_w : Who) (o : Nat) : BusR :=
  if o = 0x028 then .ok (s.reg (ethB + o) ||| bitAt s.host.mdio 31, s)
  else if o = 0x040 then
    (let n := s.ptpNs
     let t := n / 1000000000
     .ok (w32 (n % 1000000000), (s.ptpSync.setReg (ethB + 0x044) (w32 t)).setReg (ethB + 0x048) (w32 (t / 2 ^ 32))))
  else .ok (s.reg (ethB + o), s.clearRc (ethB + o))

/-- A write to the ETH block at offset `o`; a write of a ring base starts the rings there again (log entry 9). -/
def State.ethWrite (s : State) (w : Who) (o : Nat) (v : Word) : BusW :=
  if !whoGs w then .error 2
  else
    let s1 := s.ptpSync.putReg (ethB + o) v (tb (s.reg ethB) 8)
    if o = 0x018 then .ok (if tb v 0 then s.setHost { s.host with txGo := true } else s)
    else if o = 0x028 then .ok (s.ethmdio v)
    else if o = 0x050 || o = 0x054 then .ok (s.ptpStep (o == 0x054) v)
    else if o = 0x010 then .ok (s1.setHost { s1.host with rxAt := 0, stop := false })
    else if o = 0x014 then .ok (s1.setHost { s1.host with txAt := 0, stop := false, txGo := false })
    else .ok s1

/-! ## The USB registers -/

/-- USBST; whether the bus is suspended the spec gives no event for: open while VBUS is there (log entry 2). -/
def State.usbst (s : State) : Word :=
  bitAt s.host.conf 0 ||| bitAt s.host.vbus 1 ||| bitAt (s.host.vbus && tb (Config.freeWord s.free) 0) 2 ||| w32 (s.host.dfu * 16)

def State.usbRead (s : State) (_w : Who) (o : Nat) : BusR :=
  if o = 0x008 then .ok (s.usbst, { s with free := s.free + 1 }) else .ok (s.reg (usbB + o), s)

/-- USBRXB and USBTXB keep SZ where a write gives a reserved one (00 R12). -/
def State.usbKeep (s : State) (o : Nat) (v : Word) : Word :=
  if (o = 0x020 || o = 0x030) && !within 6 (fld v 0 5) 16 then putF v 0 5 (fld (s.reg (usbB + o)) 0 5) else v

/-- A write to the USB block at offset `o`: from GS; USBRXRP and USBTXWP from PS too. -/
def State.usbWrite (s : State) (w : Who) (o : Nat) (v : Word) : BusW :=
  if whoGs w || (w.mode == .ps && (o == 0x028 || o == 0x034)) then .ok (s.putReg (usbB + o) (s.usbKeep o v) (tb (s.reg usbB) 8))
  else .error 2

/-! ## I2C0 (R495) -/

/-- The bytes a command writes, from I2CD0 on. -/
def State.i2cBytes (s : State) (v : Word) : List Byte :=
  (List.range (min 16 (fld v 8 5))).map (fun i => BitVec.ofNat 8 (fld (s.reg (giuB + 0x090 + 4 * (i / 4))) (8 * (i % 4)) 8))

/-- A write to I2CCMD; GO starts a command unless one is under way: kind 3 of what leaves, its status the bytes to read, its bytes the
address and those written. -/
def State.i2ccmd (s : State) (v : Word) : State :=
  if tb v 31 && s.host.i2c.isNone then
    (s.setHost { s.host with i2c := some (v, s.now), i2cSt := 0 }).emit 3 (min 16 (fld v 16 5)) (BitVec.ofNat 8 (fld v 0 7) :: s.i2cBytes v)
  else s

/-- Bytes put into I2CD0 to I2CD3. -/
def State.i2cPut (s : State) (i : Nat) : List Byte → State
  | [] => s
  | b :: r => (s.modReg (giuB + 0x090 + 4 * (i / 4)) (fun w => putF w (8 * (i % 4)) 8 b.toNat)).i2cPut (i + 1) r

/-- I2C_COMMAND_DONE (R495): 0 well, 1 NACK, 2 ARBLOST; the bytes that the target sent stand in I2CD. -/
def execI2cCommandDone (st : Fin 3) (d : List Byte) (s : State) : Out :=
  match s.host.i2c with
  | some (c, _) =>
    if 2 ≤ s.pw.st then .next s else
    let s1 := s.setHost { s.host with i2c := none, i2cSt := if st = 0 then 0 else 2 ^ st.val }
    .next (if st = 0 then s1.i2cPut 0 (d.take (min 16 (fld c 16 5))) else s1)
  | none => .next s

/-- I2C_TIMEOUT (R495): SCL held low for more than 25 ms. -/
def execI2cTimeout (s : State) : Out :=
  match s.host.i2c with
  | some (_, t) => if t + 25000000 ≤ s.now then .next (s.setHost { s.host with i2c := none, i2cSt := 8 }) else .next s
  | none => .next s

/-! ## The UARTs (R496) -/

def ucfg (u : Fin 2) : Nat := giuB + 0x100 + 0x40 * u.val

/-- The time of a byte: start, 8 bits, parity and stop bits at 300 MHz / (16 x DIV); none with DIV below 2. -/
def State.uartByte (s : State) (u : Fin 2) : Option Nat :=
  let w := s.reg (ucfg u)
  let d := fld w 0 16
  let bits := 10 + (if fld w 16 2 = 0 then 0 else 1) + (if tb w 18 then 1 else 0)
  if tb w 19 && 2 ≤ d then some (bits * 16 * d * 10 / 3) else none

/-- A write to UTXD: ignored while the FIFO is full, and while the UART is not enabled, when USTu shows no free place as after reset
(DEDUCED, log entry 40). -/
def State.utxd (s : State) (u : Fin 2) (v : Word) : State :=
  let q := s.host.utx[u]
  if 16 ≤ q.length || !tb (s.reg (ucfg u)) 19 then s
  else s.setHost { s.host with
    utx := s.host.utx.set u (q ++ [BitVec.ofNat 8 (fld v 0 8)])
    utxAt := if q.isEmpty then s.host.utxAt.set u s.now else s.host.utxAt }

/-- A byte leaves a UART once its time is over; kinds 16 and 17 of what leaves. -/
def State.uartPass (s : State) (u : Fin 2) : State :=
  match s.host.utx[u], s.uartByte u with
  | b :: r, some t =>
    if s.host.utxAt[u] + t ≤ s.now then
      (s.setHost { s.host with utx := s.host.utx.set u r, utxAt := s.host.utxAt.set u s.now }).emit (16 + u.val) 0 [b]
    else s
  | _, _ => s

/-- UART_RECEIVE (R496): a byte arrives at an enabled UART; its clock stands in Ember and Cold (17 Table PW-5). -/
def execUartReceive (u : Fin 2) (d : Byte) (s : State) : Out :=
  let q := s.host.urx[u]
  if !tb (s.reg (ucfg u)) 19 || 2 ≤ s.pw.st then .next s
  else if 16 ≤ q.length then .next (s.modReg (ucfg u + 0xC) (fun w => setBit w 16 true))
  else .next (s.setHost { s.host with urx := s.host.urx.set u (q ++ [d]) })

/-- A read of URXD removes the byte it returns. -/
def State.urxd (s : State) (u : Fin 2) : Word × State :=
  match s.host.urx[u] with
  | [] => (0, s)
  | b :: r => (w32 b.toNat ||| bitAt true 8, s.setHost { s.host with urx := s.host.urx.set u r })

/-! ## GPIO (R497) -/

/-- GPIN: an output pin shows its output level. -/
def State.gpinWord (s : State) : Word := blend s.host.gpin (s.reg (giuB + 4)) (s.reg giuB)

/-- The line of a pin: 24 + its field of GPLINE. -/
def State.gpLine (s : State) (n : Fin 32) : Nat := 24 + fld (s.reg (giuB + 0x024 + 4 * (n.val / 16))) (2 * (n.val % 16)) 2

/-- A change of GPIO0 to GPIO3 as the always-on island sees it: an edge or level that AWKCFG names is a wake source (17 Table PW-7). -/
def State.gpioWake (s : State) (n : Fin 32) (was : Bool) : State :=
  let c := s.reg (aon + 0x014)
  if n.val < 4 && tb s.host.gpin n.val == tb c (12 + n.val) && (!tb c (8 + n.val) || was != tb s.host.gpin n.val) then s.wakeEvent (4 + n.val) else s

/-- GPIO_EVENT (R497): pin `n` is sampled at a level; an edge or level that GPIEDGE and GPIPOL name is an event. In Ember and Cold no
system cycle samples it, but the always-on island does. -/
def execGpioEvent (n : Fin 32) (v : Bool) (s0 : State) : Out :=
  let was := tb s0.gpinWord n.val
  let s := (s0.setHost { s0.host with gpin := setBit s0.host.gpin n.val v }).gpioWake n (tb s0.host.gpin n.val)
  if 2 ≤ s0.pw.st then .next s else
  let s1 := s
  let lv := tb s1.gpinWord n.val
  let ev := lv == tb (s.reg (giuB + 0x01C)) n.val && (was != lv || !tb (s.reg (giuB + 0x018)) n.val)
  .next (if ev then
    (let s2 := s1.modReg (giuB + 0x020) (fun w => setBit w n.val true)
     if tb (s.reg (giuB + 0x014)) n.val then s2.raiseAll (s.gpLine n) else s2)
  else s1)

/-! ## The GPIO, I2C and UART registers -/

/-- USTu: RX count, TX free (none while the UART is not enabled, log entry 40), URXOVF. -/
def State.ust (s : State) (u : Fin 2) : Word :=
  s.reg (ucfg u + 0xC) ||| w32 (s.host.urx[u].length + (if tb (s.reg (ucfg u)) 19 then 16 - s.host.utx[u].length else 0) * 2 ^ 8)

def State.giuRead (s : State) (_w : Who) (o : Nat) : BusR :=
  let u := fin 2 ((o - 0x100) / 0x40)
  if o = 0x008 || o = 0x00C then .ok (0, s)
  else if o = 0x010 then .ok (s.gpinWord, s)
  else if o = 0x084 then .ok (0, s)
  else if o = 0x088 then .ok (bitAt s.host.i2c.isSome 0 ||| w32 s.host.i2cSt, s)
  else if 0x100 ≤ o && (o - 0x100) % 0x40 = 8 then .ok (s.urxd u)
  else if 0x100 ≤ o && (o - 0x100) % 0x40 = 0xC then .ok (s.ust u, s)
  else .ok (s.reg (giuB + o), s)

/-- The lock of the register at an offset: I2CCFG's, or that of its UART. -/
def State.giuLock (s : State) (o : Nat) : Bool :=
  if o < 0x100 then tb (s.reg (giuB + 0x080)) 8 else tb (s.reg (ucfg (fin 2 ((o - 0x100) / 0x40)))) 24

/-- A written value with reserved encodings replaced by the field's old value (00 R12): I2CCFG has three rates, UCFG
three parities and DIV from 2. -/
def State.giuKeep (s : State) (o : Nat) (v : Word) : Word :=
  let old := s.reg (giuB + o)
  if o = 0x080 then (if fld v 0 2 = 3 then putF v 0 2 (fld old 0 2) else v)
  else if o = 0x100 || o = 0x140 then
    (let v1 := if fld v 0 16 < 2 then putF v 0 16 (fld old 0 16) else v
     if fld v1 16 2 = 3 then putF v1 16 2 (fld old 16 2) else v1)
  else v

/-- A write to the block at offset `o`: from GS; GPOUT, GPSET and GPCLR from PS too. -/
def State.giuWrite (s : State) (w : Who) (o : Nat) (v : Word) : BusW :=
  let u := fin 2 ((o - 0x100) / 0x40)
  if !(whoGs w || (w.mode == .ps && within 4 o 0xF)) then .error 2
  else if o = 0x008 then .ok (s.modReg (giuB + 4) (fun x => x ||| v))
  else if o = 0x00C then .ok (s.modReg (giuB + 4) (fun x => x &&& ~~~v))
  else if o = 0x084 then .ok (s.i2ccmd v)
  else if 0x100 ≤ o && (o - 0x100) % 0x40 = 4 then .ok (s.utxd u v)
  else .ok (s.putReg (giuB + o) (s.giuKeep o v) (s.giuLock o))

/-! ## USB events handled in hardware (R488) -/

/-- A KSP session ends; an AUTH over USB ends with it (R491, R493). -/
def State.kspEnd (s : State) : State :=
  (s.setHost { s.host with ksp := none, auth := false, kstg := false }).modReg usbB (fun w => setBit w 2 false)

/-- A session over USB ends. -/
def State.kspUsbEnd (s : State) : State :=
  match s.host.ksp with
  | some (false, _) => s.kspEnd
  | _ => s

/-- USB_BUS_RESET (R490, R491): unconfigured; a download and the session over USB end. -/
def execUsbBusReset (s : State) : Out := .next ((s.setHost { s.host with conf := false, dfu := 0, dfuSt := 0 }).kspUsbEnd.usbEvent 3)

/-- The USB block runs: USBCTL.EN, and in Hold the loader's port (16 R439); not in Ember and Cold (17 Table PW-5). -/
def State.usbOn (s : State) : Bool := (tb (s.reg usbB) 0 || s.pw.hold) && s.host.vbus && s.pw.rst.isNone && decide (s.pw.st < 2)

/-- STANDARD_REQUEST (R488): SET_CONFIGURATION, request 9, configures or unconfigures; the others leave no state that
the device shows. -/
def execStandardRequest (r : Byte) (v : Half) (s : State) : Out :=
  if r = 9 && s.usbOn then
    .next (s.setHost { s.host with conf := v == 1, dfu := if v = 1 then 2 else 0, dfuSt := 0 })
  else .next s

/-- VBUS_CHANGE (R488, 17 Table PW-7): USBST.VBUS follows; the change may wake the device. -/
def execVbusChange (v : Bool) (s : State) : Out :=
  let s1 := if v then s.setHost { s.host with vbus := true } else (s.setHost { s.host with vbus := false, conf := false, dfu := 0 }).kspUsbEnd
  .next (if s.host.vbus != v then s1.wakeEvent 18 else s1)

/-- SESSION_TIMEOUT (R491): 60 s without a request. -/
def execSessionTimeout (s : State) : Out :=
  match s.host.ksp with
  | some (_, t) => if t + 60000000000 ≤ s.now then .next s.kspEnd else .next s
  | none => .next s

/-! ## JTAG (R498, R452) -/

/-- The JTAG instructions a life-cycle state permits (16 Table PA-7). -/
def jtagOk (cycle : Nat) (ir : Byte) : Bool :=
  if cycle = 2 then ir != 0x03 else if cycle = 4 then ir == 0x01 || ir == 0xFF else true

/-- An instruction is loaded; one not permitted acts as BYPASS. -/
def State.jtag (s : State) (ir : Byte) : State := s.setHost { s.host with ir := if jtagOk s.sec.cycle ir then ir else 0xFF }

/-- The identity code: kind 32 of what leaves. -/
def idcode : Word :=
  match Config.stepping with
  | .a1 => 0x1481058B
  | .b0 => 0x2481058B

/-- IDCODE (R498). -/
def execIdcode (s : State) : Out := .next ((s.jtag 0x01).emit 32 0 (leBytes 4 idcode.toNat))
/-- SAMPLE_PRELOAD (R498). -/
def execSamplePreload (s : State) : Out := .next (s.jtag 0x02)
/-- EXTEST (R498). -/
def execExtest (s : State) : Out := .next (s.jtag 0x03)
/-- DEBUG (R452): crossbar master 14 may act. -/
def execJtagDebug (s : State) : Out := .next (s.jtag 0x10)
/-- BYPASS (R498). -/
def execBypass (s : State) : Out := .next (s.jtag 0xFF)
/-- TAP_RESET (R498): the TAP selects IDCODE (log entry 14). -/
def execTapReset (s : State) : Out := .next (s.jtag 0x01)

end Sys2Proof.Machine
end

