-- ==== Sys2Proof/Machine/Bellows.lean ====
section
/-!
DEFINITION. The bellows engines' registers and the start and abort of a chain (14 R403, R404, R407, R408). The
transfers stand in Transfer.lean.
-/
namespace Sys2Proof.Machine
open Sys2Proof

def State.setBel (s : State) (e : Fin 2) (b : Bel) : State := { s with bel := s.bel.set e b }

def State.belBusy (s : State) (e : Fin 2) : Bool := (s.bel[e]).phase != .idle

/-- The first failure of a chain (R407). -/
def State.belFail (s : State) (e : Fin 2) (why : Nat) : State :=
  s.setBel e { s.bel[e] with err := if (s.bel[e]).err = 0 then why else (s.bel[e]).err }

/-- BGOe.GO: an idle engine starts at BNEXTe. -/
def State.belGo (s : State) (e : Fin 2) : State :=
  if s.belBusy e then s
  else (s.setBel e { Bel.reset with phase := .fetch }).setReg (belReg e 0x10) (s.reg (belReg e 4))

/-- BGOe.ABORT: a busy engine stops with ERRC 6 (R407). -/
def State.belAbort (s : State) (e : Fin 2) : State := if s.belBusy e then s.belFail e 6 else s

/-- Masters in GS, and those at supervisor level of the engine's world (R408). -/
def State.belMay (s : State) (e : Fin 2) (w : Who) : Bool := whoGs w || (isSup w.mode && isG w.mode == s.belG e)

/-- A read of the BELLOWS block at offset `o`. -/
def State.bellowsRead (s : State) (_w : Who) (o : Nat) : BusR :=
  let e := fin 2 (o / 0x40)
  if o < 0x80 && o % 0x40 = 8 then .ok (0, s)
  else if o < 0x80 && o % 0x40 = 0xC then .ok (s.reg (belB + o) ||| bitAt (s.belBusy e) 0, s)
  else .ok (s.reg (belB + o), s.clearRc (belB + o))

/-- A write to the BELLOWS block at offset `o`. -/
def State.bellowsWrite (s : State) (w : Who) (o : Nat) (v : Word) : BusW :=
  let e := fin 2 (o / 0x40)
  let lk := tb (s.reg (belB + 0x100)) 0
  if o < 0x80 && o % 0x40 ≠ 0 then
    (if !s.belMay e w then .error 2
     else if o % 0x40 = 8 then
       .ok (let s1 := if tb v 0 then s.belGo e else s
            if tb v 1 then s1.belAbort e else s1)
     else if o % 0x40 = 4 && s.belBusy e then .ok s
     else .ok (s.putReg (belB + o) v lk))
  else if whoGs w then .ok (s.putReg (belB + o) v lk)
  else .error 2

end Sys2Proof.Machine
end

