-- ==== Sys2Proof/Machine/Bus.lean ====
section
/-!
DEFINITION. What a crossbar transaction does at its target (14 R383 to R390, R395, R396, R401; 06 R180, R181; 07 R186; 10
R281; 16 Table PA-6), grants and bursts, aborts, and the commands that access one register.
-/
namespace Sys2Proof.Machine
open Sys2Proof

/-- What debug may reach at all: the DEBUG instruction is loaded, and before an unlock the registers of 16 R452 alone. -/
def State.debugMay (s : State) (w : Who) (a : Nat) (wr : Bool) : Bool :=
  w.master != 14 || (s.host.ir == 0x10 && (s.debugLevel != 0 || (within 0x400C0000 a 0x400CFFFF && s.debugReaches (a % 0x10000) wr)))

/-- Masters that issue atomics (Table XB-2). -/
def mayAtomic (w : Who) : Bool := within 1 w.master.val 11

/-! ## Blocks -/

def sysB : Nat := 0x40000000

/-- IDR (R386). -/
def idr : Word :=
  match Config.stepping with
  | .a1 => 0x00481001
  | .b0 => 0x00481002

/-- A read of a register of block `b` at offset `o`. -/
def State.blockRead (s : State) (w : Who) (b o : Nat) : BusR :=
  if b = 0 then .ok (if o = 0 then idr else s.reg (sysB + o), s)
  else if b = 1 then s.pwrRead w o
  else if b = 2 then s.clkRead w o
  else if b = 3 then .ok (if o = 0x1C then s.xstat else s.reg (xbar + o), s.clearRc (xbar + o))
  else if b = 4 then s.epochRead w o
  else if b = 5 then s.damperRead w o
  else if b = 6 then s.firingRead w o
  else if b = 7 then s.afeRead w o
  else if b = 8 then s.linkRead w o
  else if b = 9 then s.mboxRead w o
  else if b = 10 then s.bellowsRead w o
  else if b = 11 then s.patternRead w o
  else if b = 12 then s.secRead w o
  else if b = 13 then s.ethRead w o
  else if b = 14 then s.usbRead w o
  else if b = 15 then s.giuRead w o
  else if b = 16 then s.aonRead w o
  else s.draughtRead w o

/-- XPARK fields and XAGE are plain; XCTL.LK locks (R400). -/
def State.xbarWrite (s : State) (w : Who) (o : Nat) (v : Word) : BusW :=
  if whoGs w then .ok (s.putReg (xbar + o) v (tb (s.reg xbar) 0)) else .error 2

/-- IDR ignores writes; a 1 to REMAP from GS sets it (R385, R386). -/
def State.sysctlWrite (s : State) (w : Who) (o : Nat) (v : Word) : BusW :=
  if o = 0 then .ok s else if whoGs w then .ok (s.putReg (sysB + o) v false) else .error 2

/-- Whether stores of the shadow are closed: a reblock is armed or staging is busy (Table PA-6). -/
def State.closed (s : State) : Bool := s.armed || s.pat.stage.isSome

/-- A write to the DAMPER block; a write to the shadow set clears STAGED (16 R442). -/
def State.damperBus (s : State) (w : Who) (o : Nat) (v : Word) : BusW :=
  match s.damperWrite w s.closed false o v with
  | .ok s1 => .ok (if within 0x1000 o 0x2FFF then s1.unstage else s1)
  | .error k => .error k

/-- A write to a register of block `b` at offset `o`. -/
def State.blockWrite (s : State) (w : Who) (b o : Nat) (v : Word) : BusW :=
  if b = 0 then s.sysctlWrite w o v
  else if b = 1 then s.pwrWrite w o v
  else if b = 2 then s.clkWrite w o v
  else if b = 3 then s.xbarWrite w o v
  else if b = 4 then s.epochWrite w o v
  else if b = 5 then s.damperBus w o v
  else if b = 6 then s.firingWrite w o v
  else if b = 7 then s.afeWrite w o v
  else if b = 8 then s.linkWrite w o v
  else if b = 9 then s.mboxWrite w o v
  else if b = 10 then s.bellowsWrite w o v
  else if b = 11 then s.patternWrite w o v
  else if b = 12 then s.secWrite w o v
  else if b = 13 then s.ethWrite w o v
  else if b = 14 then s.usbWrite w o v
  else if b = 15 then s.giuWrite w o v
  else if b = 16 then s.aonWrite w o v
  else s.draughtWrite w o v

/-- What a refused write leaves in its block: REJ with WHY 5 for DKEY (11 R307), FDENY for a demand (11 R320). -/
def State.deniedWrite (s : State) (w : Who) (a : Nat) : State :=
  if a = 0x40050050 then s.modReg destat (fun x => putF (setBit x 2 true) 4 3 5)
  else if within 0x40060100 a 0x4006027F then s.fdeny w ((a - 0x40060100) / 4)
  else s

/-! ## Control registers of a hearth over the global window (07 R186) -/

/-- The hearth and the offset of a window address. -/
def winHearth (a : Nat) : Hid := fin 64 ((a - 0x50000000) / 0x800)
def winOff (a : Nat) : Nat := (a - 0x50000000) % 0x800

/-- Masters acting in GS, and debug. -/
def winMay (w : Who) : Bool := whoGs w || w.master == 14

def State.winRead (s : State) (w : Who) (a : Nat) : BusR :=
  if winMay w && csrMayRead w.mode (winOff a) then
    .ok (s.csr (winHearth a) (winOff a) w.mode, s.modHearth (winHearth a) (fun x => x.csrReadFx (winOff a)))
  else .error 2

def State.winWrite (s : State) (w : Who) (a : Nat) (v : Word) : BusW :=
  if winMay w && csrMayWrite w.mode (winOff a) then .ok (s.csrWrite (winHearth a) (winOff a) v w.mode) else .error 2

/-! ## The views (10 R281, R282) -/

/-- The page and the frame of slice `h` that view `i` of Table MN-4 shows; none where the page is not held. -/
def State.viewPage (s : State) (i : Nat) (h : Hid) : Option (Nat × Fin 3) :=
  let e := s.ep
  let pick := fun (n : Option Nat) (g : SliceMap → Option (Fin 3)) =>
    match n, g e.maps[h] with
    | some n, some f => if e.heldBy g then some (n, f) else none
    | _, _ => none
  if i = 0 then pick e.pgC (fun m => m.c) else if i = 1 then pick e.pgC1 (fun m => m.c1)
  else if i = 2 then pick e.pgS (fun m => m.s) else pick e.pgS1 (fun m => m.s1)

/-- Byte `o` of slice `h` in a view: its header, or the frame's content. -/
def State.viewByte (s : State) (h : Hid) (p : Nat × Fin 3) (o : Nat) : Byte :=
  if o < 16 then BitVec.ofNat 8 (lane (s.header h p.2 p.1 (s.ep.sealedPage p.1) (s.ep.stalePage p.1) (o / 4)) (o % 4) 8)
  else s.byte (frameKey p.2 h o)

/-- A burst of a view under the map in force: the frame read and its bytes. -/
def State.viewRead (s : State) (a n : Nat) : Option (Fin 3 × List Byte) :=
  let o := a - 0x13000000
  let h := fin 64 (o % 0x40000 / 0x1000)
  (s.viewPage (o / 0x40000) h).map (fun p => (p.2, (List.range n).map (fun i => s.viewByte h p (o % 0x1000 + i))))

/-! ## Transactions (R388, R389) -/

/-- How a transaction ends: performed, waiting for its target, or with a bus error of a KIND. -/
inductive XRes where
  | done (bs : List Byte) (s : State)
  | wait
  | err (kind : Nat)

/-- Targets that accept a single aligned word only: control registers and blocks, table sets excepted (Table XB-3). -/
def singleWord (a : Nat) : Bool :=
  within 0x50000000 a 0x5001FFFF || (within 0x40000000 a 0x4011FFFF && !within 0x40051000 a 0x40052FFF)

/-- The bit-set and bit-clear aliases of system SRAM. -/
def isAlias (a : Nat) : Bool := within 0x18000000 a 0x191FFFFF

/-- A transaction breaks a burst rule (R388, R395): no byte or more than 256, a 256-byte boundary crossed, other than one
aligned word at a single-word target, more than one beat at an alias, strobes with gaps. -/
def badShape (a : Nat) (op : XOp) : Bool :=
  let n := op.size
  n == 0 || decide (256 < a % 256 + n)
    || (singleWord a && (n != 4 || a % 4 != 0))
    || (isAlias a && decide (16 < a % 16 + n))
    || (match op with
        | .gaps _ => true
        | _ => false)

/-- The store cell of a system SRAM address or alias. -/
def sramKey (a : Nat) : Nat := 0x10000000 + a % 0x200000

/-- Whether an address of the program store lies in its stack's active bank. -/
def progStack (a : Nat) : Fin 8 := fin 8 ((a - 0x30000000) / 0xC0000)
def State.isActive (s : State) (a : Nat) : Bool := (a - 0x30000000) % 0xC0000 / 0x60000 == s.activeBank (progStack a)

/-- A byte of the active bank as the buffer and the bank hold it. -/
def State.lineBytes (s : State) (k : Fin 8) (l : Nat) : List Byte := s.bytes (progKey k (s.activeBank k) (l * 48)) 48

/-- Bytes over part of a line. -/
def overlay (d : List Byte) (o : Nat) (bs : List Byte) : List Byte := d.take o ++ bs ++ d.drop (o + bs.length)

/-- A store to the active bank (06 R181): into the patch buffer, or it waits. -/
def State.patchStore (s : State) (a : Nat) (bs : List Byte) : XRes :=
  let k := progStack a
  let o := (a - 0x30000000) % 0x60000
  let l := o / 48
  let st := s.stack k
  match st.patch.find? (fun p => p.line == l) with
  | some p =>
    if p.mask = 0 then
      .done [] (s.setStack k { st with patch := st.patch.map (fun q => if q.line = l then { q with data := overlay q.data (o % 48) bs } else q) })
    else .wait
  | none =>
    if 8 ≤ st.patch.length then .wait
    else .done [] ((s.setStack k { st with patch := st.patch ++ [⟨l, overlay (s.lineBytes k l) (o % 48) bs, 0⟩] }).patchSettle k)

/-- Whether a store to the active bank must wait for a line to retire (06 R181). -/
def State.patchWaits (s : State) (a : Nat) : Bool :=
  let st := s.stack (progStack a)
  match st.patch.find? (fun p => p.line == (a - 0x30000000) % 0x60000 / 48) with
  | some p => p.mask != 0
  | none => decide (8 ≤ st.patch.length)

/-- A hearth that may store to the active bank: in GS, with HCTL.PSWE (06 R180). -/
def State.mayPatch (s : State) (w : Who) : Bool :=
  match w.hearth with
  | some h => whoGs w && tb ((s.hearth h).rd 0x008) 1
  | none => false

/-- A write to the program store (06 R180, Table PA-6). -/
def State.progWrite (s : State) (w : Who) (a : Nat) (bs : List Byte) : XRes :=
  if s.isActive a then (if s.mayPatch w then s.patchStore a bs else .err (if whoGs w then 5 else 2))
  else if !whoGs w then .err 2
  else if s.closed then .err 5
  else .done [] (s.setBytes a bs).unstage

/-- Whether an address of block RAM lies in the active block. -/
def State.bramActive (s : State) (a : Nat) : Bool := decide (0x38080000 ≤ a) == s.blksel

def State.bramWrite (s : State) (w : Who) (a : Nat) (bs : List Byte) : XRes :=
  if !whoGs w then .err 2
  else if s.bramActive a then .done [] (s.setBytes a bs)
  else if s.closed then .err 5
  else .done [] (s.setBytes a bs).unstage

/-- A write through an alias: each byte old or data, or old and not data (R395). -/
def State.aliasWrite (s : State) (a : Nat) (bs : List Byte) : State :=
  let old := s.bytes (sramKey a) bs.length
  s.setBytes (sramKey a) ((old.zip bs).map (fun p => if a < 0x19000000 then p.1 ||| p.2 else p.1 &&& ~~~p.2))

/-- What a block answered, as a transaction's end. -/
def ofR (r : BusR) : XRes :=
  match r with
  | .ok (v, s) => .done (leBytes 4 v.toNat) s
  | .error k => .err k

def ofW (r : BusW) : XRes :=
  match r with
  | .ok s => .done [] s
  | .error k => .err k

/-- Words of a table set written in a burst. -/
def State.setWords (s : State) (w : Who) (a : Nat) : List Byte → XRes
  | b0 :: b1 :: b2 :: b3 :: r =>
    match s.damperBus w (a - 0x40050000) (w32 (leNat [b0, b1, b2, b3])) with
    | .ok s1 => s1.setWords w (a + 4) r
    | .error k => .err k
  | _ => .done [] s

/-- A burst to a table set, its bytes joined with those its strobes leave out of the first and last word (R388, Table XB-3). -/
def State.setWrite (s : State) (w : Who) (a : Nat) (bs : List Byte) : XRes :=
  let lo := a - a % 4
  let hi := (a + bs.length + 3) / 4 * 4
  s.setWords w lo (s.bytes lo (a - lo) ++ bs ++ s.bytes (a + bs.length) (hi - (a + bs.length)))

/-- A byte of the program store as every master reads it: a store that the patch buffer has acknowledged is seen (06 R167, R181). -/
def State.progByte (s : State) (a : Nat) : Byte :=
  let o := (a - 0x30000000) % 0x60000
  match (if s.isActive a then (s.stack (progStack a)).patch.find? (fun p => p.line == o / 48) else none) with
  | some p => p.data.getD (o % 48) 0
  | none => s.byte a

/-- A read at a target; `snap` is what a granted burst of a view reads. -/
def State.readAt (s : State) (w : Who) (ram : Bool) (a n : Nat) (snap : Option (Option (Fin 3 × List Byte))) : XRes :=
  if a < 0x200000 then .done (if ram then s.bytes (sramKey a) n else s.bytes (0x11000000 + a % 0x10000) n) s
  else if within 0x10000000 a 0x101FFFFF || isAlias a then .done (s.bytes (sramKey a) n) s
  else if within 0x12000000 a 0x1200FFFF then
    (if s.sec.wipe.isSome then .err 5 else if whoG w then .done (s.bytes a n) s else .err 2)
  else if within 0x13000000 a 0x130FFFFF then
    (match snap.getD (s.viewRead a n) with
     | some (_, bs) => .done bs s
     | none => .err 5)
  else if within 0x30000000 a 0x305FFFFF then
    (if whoG w then .done ((List.range n).map (fun i => s.progByte (a + i))) s else .err 2)
  else if 0x60000000 ≤ a then (if whoG w then .done (s.bytes (flashKey (a - 0x60000000)) n) s else .err 2)
  else if within 0x38000000 a 0x380FFFFF then (if s.bramActive a || whoGs w then .done (s.bytes a n) s else .err 2)
  else if within 0x40051000 a 0x40052FFF then .done (s.bytes a n) s
  else if within 0x40000000 a 0x4011FFFF then ofR (s.blockRead w ((a - 0x40000000) / 0x10000) (a % 0x10000))
  else if within 0x50000000 a 0x5001FFFF then ofR (s.winRead w a)
  else .done (s.bytes a n) s

/-- A write at a target; what is read only refuses (R389), the QSPI window with KIND 2 (16 R431). -/
def State.writeAt (s : State) (w : Who) (ram : Bool) (a : Nat) (bs : List Byte) : XRes :=
  if a < 0x200000 then (if ram then .done [] (s.setBytes (sramKey a) bs) else .err 5)
  else if within 0x10000000 a 0x101FFFFF then .done [] (s.setBytes a bs)
  else if isAlias a then .done [] (s.aliasWrite a bs)
  else if within 0x12000000 a 0x1200FFFF then
    (if s.sec.wipe.isSome then .err 5 else if whoG w then .done [] (s.setBytes a bs) else .err 2)
  else if within 0x11000000 a 0x1100FFFF || within 0x13000000 a 0x130FFFFF then .err 5
  else if 0x60000000 ≤ a then .err 2
  else if within 0x20000000 a 0x213FFFFF then .done [] (s.portB a bs)
  else if within 0x30000000 a 0x305FFFFF then s.progWrite w a bs
  else if within 0x38000000 a 0x380FFFFF then s.bramWrite w a bs
  else if within 0x40051000 a 0x40052FFF then
    s.setWrite w a bs
  else if within 0x50000000 a 0x5001FFFF then ofW (s.winWrite w a (w32 (leNat bs)))
  else ofW (s.blockWrite w ((a - 0x40000000) / 0x10000) (a % 0x10000) (w32 (leNat bs)))

/-- The word after an atomic (Table XB-4). -/
def atomicWord (k : FarKind) (old v : Word) : Word :=
  match k with
  | .addsH2 =>
    w32 (trunc 16 (clampI (slane old 0 16 + slane v 0 16) (-32768) 32767)
      + trunc 16 (clampI (slane old 1 16 + slane v 1 16) (-32768) 32767) * 2 ^ 16)
  | .swap => v
  | _ => old + v

/-- An atomic on an aligned word of a felt bank; the old word is the answer (R396). It reads the word after a port A write of
the same cycle (08 R247). -/
def State.atomicAt (s : State) (w : Who) (a : Nat) (k : FarKind) (v : Word) : XRes :=
  if !(mayAtomic w && within 0x20000000 a 0x213FFFFF) then .err 7
  else if a % 4 ≠ 0 then .err 4
  else .done (s.bytes a 4) (s.portB a (leBytes 4 (atomicWord k (s.rd32 a) v).toNat))

/-- A transaction at target `t` (R388 to R390, R398). -/
def State.perform0 (s : State) (w0 : Who) (t : Fin 19) (ram : Bool) (a : Nat) (op : XOp) (snap : Option (Option (Fin 3 × List Byte))) : XRes :=
  let w := s.carried w0
  if op.isAt && !within 0x20000000 a 0x213FFFFF then .err 7
  else if badShape a op then .err 4
  else if s.targetOff t then .err 3
  else if !s.debugMay w a op.isWr then .err 2
  else match op with
    | .read n => s.readAt w ram a n snap
    | .write bs => s.writeAt w ram a bs
    | .gaps _ => .err 4
    | .atomic k v => s.atomicAt w a k v

/-- A bus error as it is logged, and what it leaves in its block. -/
def State.busErr (s : State) (w0 : Who) (t : Option (Fin 19)) (kind a : Nat) (op : XOp) : State :=
  let w := s.carried w0
  (if op.isWr && !op.isAt && kind != 4 then s.deniedWrite w a else s).xerr w t kind a op.isWr op.isAt

/-! ## Bursts cut by a reset or a loss of power (R397, R398) -/

/-- The burst a target holds ends there; the target is free. -/
def State.freeTarget (s : State) (t : Fin 19) : State := { s with xb := { s.xb with busy := s.xb.busy.set t none } }

/-- Beats of a burst of `n` bytes at `a`. -/
def beats (a n : Nat) : Nat := (a % 16 + n + 15) / 16

/-- The accepted part of a write burst stands: how many of its beats were accepted is open (log entry 2). The rest
starts at the address given back. -/
def State.cutBurst (s : State) (r : XReq) : State × Nat :=
  match r.op with
  | .write bs =>
    let k := Config.freeNat s.free % beats r.addr bs.length
    let n := if k = 0 then 0 else 16 * k - r.addr % 16
    let s1 := { s with free := s.free + 1 }
    if n = 0 then (s1, r.addr)
    else match s1.perform0 r.who r.target r.ram r.addr (.write (bs.take n)) none with
      | .done _ s2 => (s2, r.addr + n)
      | _ => (s1, r.addr)
  | .read n => ({ s with free := s.free + 1 }, r.addr + (if Config.freeNat s.free % beats r.addr n = 0 then 0
      else 16 * (Config.freeNat s.free % beats r.addr n) - r.addr % 16))
  | .atomic _ _ =>
    match s.perform0 r.who r.target r.ram r.addr r.op none with
    | .done _ s2 => (s2, r.addr)
    | _ => (s, r.addr)
  | .gaps _ => (s, r.addr)

/-- A burst of a reset master is aborted, logged with KIND 6; a granted atomic is performed, its old value discarded. -/
def State.abortBurst (s : State) (t : Fin 19) (r : XReq) : State :=
  let p := (s.freeTarget t).cutBurst r
  if r.op.isAt then p.1 else p.1.xerr (s.carried r.who) (some t) 6 p.2 r.op.isWr false

/-- The bursts that some targets hold, those of masters of lower index first: the order in which events of one system cycle are logged
(R399). Every other event of the crossbar is one command, in a system cycle of its own (DESIGN CHOICE, log entry 32). -/
def State.burstsAt (s : State) (ts : List (Fin 19)) : List (Fin 19 × XReq) :=
  let bs := ts.filterMap (fun t => (s.xb.busy[t]).map (fun r => (t, r)))
  (List.range 15).flatMap (fun m => bs.filter (fun b => b.2.who.master.val == m))

/-- Every burst of a master that is reset is aborted. -/
def State.abortBursts (s : State) (p : Fin 15 → Bool) : State :=
  ((s.burstsAt (List.finRange 19)).filter (fun b => p b.2.who.master)).foldl (fun (s : State) b => s.abortBurst b.1 b.2) s

/-- A device reset of the kind whose bit of RSTCAUSE is `bit`: every burst is aborted first (R397; 17 R477). -/
def State.resetNow (s : State) (bit : Nat) : State := (s.abortBursts (fun _ => true)).deviceReset bit

/-- A transaction at target `t`, and the reset that a write to PWSWR asks for. -/
def State.perform (s : State) (w : Who) (t : Fin 19) (ram : Bool) (a : Nat) (op : XOp) (snap : Option (Option (Fin 3 × List Byte))) : XRes :=
  match s.perform0 w t ram a op snap with
  | .done bs s1 => match s1.pw.ask with
    | some b => .done bs ((s1.setPw { s1.pw with ask := none }).resetNow b)
    | none => .done bs s1
  | r => r

/-! ## Grants and bursts (R390, R391) -/

/-- What a request reads if it is a burst of a view, under the map at its grant. -/
def State.snapOf (s : State) (r : XReq) : Option (Option (Fin 3 × List Byte)) :=
  match r.op with
  | .read n => if r.target = 3 then some (s.viewRead r.addr n) else none
  | _ => none

/-- A store to the active bank that waits for a patched line stays in its queue (06 R181). -/
def State.lineWaits (s : State) (r : XReq) : Bool :=
  match r.op with
  | .write _ => within 0x30000000 r.addr 0x305FFFFF && s.isActive r.addr && s.mayPatch (s.carried r.who) && s.patchWaits r.addr
  | _ => false

/-- Whether a request takes part in arbitration among `rs`: the oldest of its own, none of its own in a burst, no line to wait for. -/
def State.mayGrant (s : State) (rs : List XReq) (r : XReq) : Bool :=
  firstOfOwn rs r && !s.lineWaits r &&
    (List.finRange 19).all (fun t => match s.xb.busy[t] with
      | some b => !sameOwn b r
      | none => true)

/-- The request that target `t` grants among `rs`: the oldest promoted one, else by priority (R391); none while its clock stands. -/
def State.choiceOf (s : State) (t : Fin 19) (rs : List XReq) : Option XReq :=
  if s.targetHeld t then none
  else
    let c := rs.filter (fun r => r.target == t && s.mayGrant rs r)
    match c.find? (fun r => r.promoted) with
    | some r => some r
    | none => leastRank c

/-- A request is granted. -/
def State.grant (s : State) (t : Fin 19) (r : XReq) : State :=
  ({ s with xb := { s.xb with
      reqs := s.xb.reqs.filter (fun q => q.id != r.id)
      busy := s.xb.busy.set t (some { r with snap := s.snapOf r }) } } : State).noteWait r

/-- GRANT (R391): a target that holds no burst grants one waiting request. -/
def execGrant (t : Fin 19) (s : State) : Out :=
  if (s.xb.busy[t]).isSome then .next s
  else match s.choiceOf t s.xb.reqs with
    | none => .next s
    | some r => .next (s.grant t r)

/-- The granted burst of a target is performed; a store whose line has closed since its grant waits again, before all others of its own. -/
def State.burst (s : State) (t : Fin 19) (r : XReq) : State :=
  let s1 := s.freeTarget t
  match s1.perform r.who t r.ram r.addr r.op r.snap with
  | .done bs s2 => s2.xbEnd r.origin (.ok bs)
  | .wait => { s1 with xb := { s1.xb with reqs := { r with snap := none } :: s1.xb.reqs } }
  | .err k => (s1.busErr r.who (some t) k r.addr r.op).xbEnd r.origin (.error k)

/-- BURST (R390): the burst of a target whose clock stands is held (R26, R398). -/
def execBurst (t : Fin 19) (s : State) : Out :=
  match s.xb.busy[t] with
  | some r => .next (if s.targetHeld t then s else s.burst t r)
  | none => .next s

/-! ## Resets and power losses in a burst (R397, R398) -/

/-- The lock owners of a master: the hearths of a stack port, or the master itself. -/
def lockIdsOf (m : Fin 15) : List Nat :=
  if within 1 m.val 8 then (List.range 8).map (fun i => 8 * (m.val - 1) + i) else (lockId ⟨m, none, .pu⟩).toList

/-- An engine that is reset is idle; its tags are free, and it waits for none (R407). -/
def State.belReset (s : State) (e : Fin 2) : State :=
  let mine := fun (u : TagUser) => match u with
    | .bel g _ => g == e
    | _ => false
  let s1 := (s.lk.tags.filter (fun t => mine t.2.1)).foldl (fun (s : State) t => s.dropTag t.1) s
  (s1.unwaitAll mine).setBel e Bel.reset

/-- MASTER_RESET_ABORT (R397; 13 R376). -/
def execMasterResetAbort (m : Fin 15) (s : State) : Out :=
  let s1 := s.abortBursts (fun n => n == m)
  let s2 := (lockIdsOf m).foldl (fun (s : State) i => s.freeLocks i) (s1.withdrawReqs (fun r => r.who.master == m))
  let s3 := match stagingOf m with
    | some k => s2.resetStaging k
    | none => s2
  .next (if m = 9 then s3.belReset 0 else if m = 10 then s3.belReset 1 else s3)

/-- The targets of the island of a target (Table XB-3). -/
def islandOf (t : Fin 19) : List (Fin 19) := if t ≤ 4 || t = 13 || t = 18 then [0, 1, 2, 3, 4, 13, 18] else [t]

/-- ISLAND_POWER_LOSS (R398): the burst ends with KIND 3, accepted beats stand; later requests end so too (R26). -/
def execIslandPowerLoss (t : Fin 19) (s : State) : Out :=
  let s1 := (s.burstsAt (islandOf t)).foldl (fun (s : State) b =>
    let p := (s.freeTarget b.1).cutBurst b.2
    (p.1.xerr (s.carried b.2.who) (some b.1) 3 p.2 b.2.op.isWr b.2.op.isAt).xbEnd b.2.origin (.error 3)) s
  .next { s1 with xb := { s1.xb with off := (islandOf t).foldl (fun (m : BitVec 19) t => m ||| BitVec.ofNat 19 (2 ^ t.val)) s1.xb.off } }

/-! ## One access, made and performed -/

/-- The request of an access that a master makes now. -/
def State.reqOf (s : State) (w : Who) (t : Fin 19) (a : Nat) (op : XOp) : XReq :=
  ⟨s.nextId + 1, w, t, a, op, s.now, false, s.remap, .cmd, none⟩

/-- What target `t` performs before it grants request `r`: the burst it holds, and the waiting requests that R391 puts first. -/
def State.clearWay (s : State) (t : Fin 19) (r : XReq) : Nat → State
  | 0 => s
  | n + 1 =>
    if s.targetHeld t then s
    else match s.xb.busy[t] with
      | some b => (s.burst t b).clearWay t r n
      | none => match s.choiceOf t (s.xb.reqs ++ [r]) with
        | some q => if q.id = r.id then s else (s.grant t q).clearWay t r n
        | none => s

/-- The KIND that stands for an access that has to wait: no bus error has it. -/
def waits : Nat := 15

/-- An access of a master to an address, and what it is answered: the KIND of a bus error or 0, and the bytes read. It stands for the
whole access: its target performs first what comes before it. Where the target holds its bursts, or an earlier request of the
master waits, the access `waits` (DESIGN CHOICE, log entry 33). -/
def State.access (s : State) (w : Who) (a : Nat) (op : XOp) : (Nat × List Byte) × State :=
  match targetOf s.remap a with
  | none => ((1, []), s.busErr w none 1 a op)
  | some t =>
    let r := s.reqOf w t a op
    let s1 := s.clearWay t r (2 * s.xb.reqs.length + 2)
    if s1.choiceOf t (s1.xb.reqs ++ [r]) ≠ some r then ((waits, []), s1)
    else match s1.perform w t s.remap a op none with
      | .done bs s2 => ((0, bs), s2)
      | .wait => ((waits, []), s1)
      | .err k => ((k, []), s1.busErr w (some t) k a op)

/-- An access of `n` bytes from `a` on meets a target that holds its bursts: a master that acts by itself waits. -/
def State.dmaWaits (s : State) (a n : Nat) : Bool :=
  [a, a + n - 1].any (fun x => match targetOf s.remap x with
    | some t => s.targetHeld t
    | none => false)

/-- A command's access: its answer is kept. One that has to wait becomes a request, and its answer comes with its burst. -/
def State.busCmd (s : State) (w : Who) (a : Nat) (op : XOp) : Out :=
  let r := s.access w a op
  let s1 : State := { r.2 with xb := { r.2.xb with ans := r.1 } }
  if r.1.1 = waits then
    .next (match targetOf s.remap a with
      | some t => { s1 with nextId := s1.nextId + 1, xb := { s1.xb with reqs := s1.xb.reqs ++ [s1.reqOf w t a op] } }
      | none => s1)
  else .next s1

/-- A read and a write of one word. -/
def State.readCmd (s : State) (w : Who) (a : Nat) : Out := s.busCmd w a (.read 4)
def State.writeCmd (s : State) (w : Who) (a : Nat) (v : Word) : Out := s.busCmd w a (.write (leBytes 4 v.toNat))

/-! ## The commands that access one register -/

/-- REGISTER_WRITE (00 R7). -/
def execRegisterWrite (w : Who) (a v : Word) (s : State) : Out := s.writeCmd w a.toNat v
/-- RC_READ (00 R10). -/
def execRcRead (w : Who) (a : Word) (s : State) : Out := s.readCmd w a.toNat
/-- LATCHING_READ (17 R482). -/
def execLatchingRead (w : Who) (a : Word) (s : State) : Out := s.readCmd w a.toNat
/-- BIT_SET_ALIAS (R395): the word at offset `a` of the bit-set alias. -/
def execBitSetAlias (w : Who) (a v : Word) (s : State) : Out := s.writeCmd w (0x18000000 + a.toNat % 0x200000) v
/-- BIT_CLEAR_ALIAS (R395): the word at offset `a` of the bit-clear alias. -/
def execBitClearAlias (w : Who) (a v : Word) (s : State) : Out := s.writeCmd w (0x19000000 + a.toNat % 0x200000) v
/-- The far operation of an atomic. -/
def atomKind (op : AtomOp) : FarKind :=
  match op with
  | .add => .add
  | .addsH2 => .addsH2
  | .swap => .swap

/-- ATOMIC (R396). -/
def execAtomic (w : Who) (op : AtomOp) (a v : Word) (s : State) : Out := s.busCmd w a.toNat (.atomic (atomKind op) v)
/-- REMAP (R385). -/
def execRemap (w : Who) (v : Word) (s : State) : Out := s.writeCmd w (sysB + 4) v
/-- SWIPE (16 R455). -/
def execSwipe (w : Who) (v : Word) (s : State) : Out := s.writeCmd w (secB + 0x024) v
/-- ICSET (07 R193): over the global window. -/
def execIcset (w : Who) (h : Hid) (v : Word) (s : State) : Out := s.writeCmd w (0x50000000 + h.val * 0x800 + 0x10C) v
/-- DGFEED (07 R216). -/
def execDgfeed (w : Who) (d : Draught) (v : Word) (s : State) : Out := s.writeCmd w (dgBase d + 0x10) v
/-- FDEM_WRITE (11 R320). -/
def execFdemWrite (w : Who) (n : Fin 96) (v : Word) (s : State) : Out := s.writeCmd w (firing + 0x100 + 4 * n.val) v
/-- FIRST_KEY (11 R307): DKEY. -/
def execFirstKey (w : Who) (v : Word) (s : State) : Out := s.writeCmd w (damper + 0x50) v
/-- SECOND_KEY (11 R307): DKEY. -/
def execSecondKey (w : Who) (v : Word) (s : State) : Out := s.writeCmd w (damper + 0x50) v
/-- DQSET (11 R314): DQSETk. -/
def execDqset (w : Who) (k : Fin 3) (v : Word) (s : State) : Out := s.writeCmd w (damper + 0x20 + 4 * k.val) v
/-- DQCLR (11 R315): DQCLRk. -/
def execDqclr (w : Who) (k : Fin 3) (v : Word) (s : State) : Out := s.writeCmd w (damper + 0x30 + 4 * k.val) v
/-- DRQTX (11 R317). -/
def execDrqtx (w : Who) (v : Word) (s : State) : Out := s.writeCmd w (damper + 0x60) v
/-- MBCFG_WRITE (13 R375). -/
def execMbcfgWrite (w : Who) (m : Fin 128) (v : Word) (s : State) : Out := s.writeCmd w (mbox + 0x100 + 4 * m.val) v
/-- MBSGO (13 R366): the go register of the master's own staging buffer. -/
def execMbsgo (w : Who) (v : Word) (s : State) : Out :=
  s.writeCmd w (mbox + 0x620 + 0x40 * (match stagingOf w.master with
    | some k => k.val
    | none => 0)) v
/-- MBRING (13 R378). -/
def execMbring (w : Who) (v : Word) (s : State) : Out := s.writeCmd w (mbox + 0x20) v
/-- HLOCK_READ (13 R379). -/
def execHlockRead (w : Who) (n : Fin 64) (s : State) : Out := s.readCmd w (mbox + 0x800 + 4 * n.val)
/-- HLOCK_WRITE (13 R379). -/
def execHlockWrite (w : Who) (n : Fin 64) (v : Word) (s : State) : Out := s.writeCmd w (mbox + 0x800 + 4 * n.val) v
/-- MBLKFREE (13 R380). -/
def execMblkfree (w : Who) (k : Fin 2) (v : Word) (s : State) : Out := s.writeCmd w (mbox + 0xA00 + 4 * k.val) v
/-- GO (R405): BGOe. -/
def execGo (w : Who) (e : Fin 2) (s : State) : Out := s.writeCmd w (belReg e 8) 1
/-- ABORT (R407): BGOe. -/
def execAbort (w : Who) (e : Fin 2) (s : State) : Out := s.writeCmd w (belReg e 8) 2
/-- ACH_WRITE (15 R423). -/
def execAchWrite (w : Who) (c : Fin 48) (v : Word) (s : State) : Out := s.writeCmd w (afeB + 0x100 + 4 * c.val) v
/-- STAGING (16 R441): PSTGC.GO with the slot. -/
def execStaging (w : Who) (slot : Bool) (s : State) : Out := s.writeCmd w (patB + 0x020) (if slot then 3 else 1)
/-- STAGING_ABORT (16 R441). -/
def execStagingAbort (w : Who) (s : State) : Out := s.writeCmd w (patB + 0x020) 4
/-- ARM (16 R444), with FAB. -/
def execArm (w : Who) (fab : Bool) (s : State) : Out := s.writeCmd w (patB + 0x038) (if fab then 9 else 1)
/-- DISARM (16 R448). -/
def execDisarm (w : Who) (s : State) : Out := s.writeCmd w (patB + 0x038) 2
/-- REBLOCK_COMMIT (16 R449). -/
def execReblockCommit (w : Who) (s : State) : Out := s.writeCmd w (patB + 0x038) 4
/-- QSPI_COMMAND (16 R443): PQCMD with GO. -/
def execQspiCommand (w : Who) (v : Word) (s : State) : Out := s.writeCmd w (patB + 0x060) (v ||| 0x80000000)
/-- QSPI_WINDOW_READ (16 R431): `n` + 1 bytes at offset `a` of the window. -/
def execQspiWindowRead (w : Who) (a : Word) (n : Fin 256) (s : State) : Out :=
  s.busCmd w (0x60000000 + a.toNat % 0x4000000) (.read (n.val + 1))
/-- SLCADV (16 R451). -/
def execSlcadv (w : Who) (v : Word) (s : State) : Out := s.writeCmd w (secB + 0x004) v
/-- SDBGGO (16 R453). -/
def execSdbggo (w : Who) (v : Word) (s : State) : Out := s.writeCmd w (secB + 0x090) v
/-- OP_CHANGE (17 R464): PWOP with a new point for stack `k`. -/
def execOpChange (w : Who) (k op : Fin 8) (s : State) : Out := s.writeCmd w (pwr + 0x004) (putF (s.reg (pwr + 0x004)) (4 * k.val) 3 op.val)
/-- SLEEP_REQUEST (17 R469): PWSLP. -/
def execSleepRequest (w : Who) (v : Word) (s : State) : Out := s.writeCmd w (pwr + 0x020) v
/-- SWR (17 Table PW-9). -/
def execSwr (w : Who) (v : Word) (s : State) : Out := s.writeCmd w (pwr + 0x030) v
/-- HRST (17 R479): PWHRST. -/
def execHrst (w : Who) (v : Word) (s : State) : Out := s.writeCmd w (pwr + 0x034) v
/-- ETHTXGO (18 R486). -/
def execEthtxgo (w : Who) (s : State) : Out := s.writeCmd w (ethB + 0x018) 1
/-- PTPSTEP (18 R487): PTPSTEP, or with `sec` PTPSTEPS. -/
def execPtpstep (w : Who) (sec : Bool) (v : Word) (s : State) : Out := s.writeCmd w (ethB + (if sec then 0x054 else 0x050)) v
/-- ETHMDIO (18 R485): with GO. -/
def execEthmdio (w : Who) (v : Word) (s : State) : Out := s.writeCmd w (ethB + 0x028) (v ||| 0x80000000)
/-- I2CCMD (18 R495): with GO. -/
def execI2ccmd (w : Who) (v : Word) (s : State) : Out := s.writeCmd w (giuB + 0x084) (v ||| 0x80000000)
/-- URXD (18 R496). -/
def execUrxd (w : Who) (u : Fin 2) (s : State) : Out := s.readCmd w (ucfg u + 8)
/-- UTXD (18 R496). -/
def execUtxd (w : Who) (u : Fin 2) (v : Word) (s : State) : Out := s.writeCmd w (ucfg u + 4) v

end Sys2Proof.Machine
end

