-- ==== Sys2Proof/Machine/Transfer.lean ====
section
/-!
DEFINITION. The transfers of the bellows engines (14 R403 to R407).
-/
namespace Sys2Proof.Machine
open Sys2Proof

/-! ## Descriptors (R403, R404) -/

def Bel.w (b : Bel) (i : Nat) : Word := b.desc.getD i 0

def Bel.src (b : Bel) : Nat := (b.w 0).toNat
def Bel.dst (b : Bel) : Nat := (b.w 1).toNat
def Bel.snode (b : Bel) : BitVec 14 := BitVec.ofNat 14 (fld (b.w 2) 0 14)
def Bel.dnode (b : Bel) : BitVec 14 := BitVec.ofNat 14 (fld (b.w 2) 16 14)
def Bel.len (b : Bel) : Nat := fld (b.w 3) 0 24
def Bel.atop (b : Bel) : Nat := fld (b.w 4) 0 2
def Bel.sfix (b : Bel) : Bool := tb (b.w 4) 4
def Bel.dfix (b : Bel) : Bool := tb (b.w 4) 5
def Bel.epw (b : Bel) : Bool := tb (b.w 4) 6
def Bel.irq (b : Bel) : Bool := tb (b.w 4) 7
def Bel.next (b : Bel) : Nat := fld (b.w 5) 5 27 * 32

/-- Where a descriptor may lie: system SRAM, block RAM, or secure SRAM for an engine in world G. -/
def State.descRegion (s : State) (e : Fin 2) (a : Nat) : Bool :=
  within 0x10000000 a 0x101FFFFF || within 0x38000000 a 0x380FFFFF || (s.belG e && within 0x12000000 a 0x1200FFFF)

/-- Reserved bits, alignment, atomics outside the felt banks, and NEXT outside its regions make a descriptor bad. -/
def State.descBad (s : State) (e : Fin 2) (b : Bel) : Bool :=
  b.src % 4 != 0 || b.dst % 4 != 0 || b.len % 4 != 0
    || b.w 2 &&& 0xC000C000 != 0 || b.w 3 &&& 0xFF000000 != 0 || b.w 4 &&& 0xFFFFFF0C != 0 || b.w 5 &&& 0x1F != 0
    || b.w 6 &&& 0xFFFF0000 != 0 || b.w 7 != 0
    || (b.atop != 0 && !within 0x20000000 b.dst 0x213FFFFF)
    || (b.next != 0 && !s.descRegion e b.next)

/-! ## Chunks (R405) -/

/-- The chunk at the engine's next offset: at most 256 bytes, within one 256-byte block of SRC and of DST, or a word. -/
def Bel.chunkLen (b : Bel) : Nat :=
  if b.sfix || b.dfix then 4
  else min (min 256 (b.len - b.issued)) (min (256 - (b.src + b.issued) % 256) (256 - (b.dst + b.issued) % 256))

/-- The source address of a chunk, and the destination of its byte `i`. -/
def Bel.srcAt (b : Bel) (c : Chunk) : Nat := if b.sfix then b.src else b.src + c.off
def Bel.dstAt (b : Bel) (c : Chunk) (i : Nat) : Nat := if b.dfix then b.dst else b.dst + c.off + i

def State.setChunk (s : State) (e : Fin 2) (c : Chunk) : State :=
  s.setBel e { s.bel[e] with chunks := (s.bel[e]).chunks.map (fun x => if x.id = c.id then c else x) }

def State.dropChunk (s : State) (e : Fin 2) (id : Nat) : State :=
  s.setBel e { s.bel[e] with chunks := (s.bel[e]).chunks.filter (fun x => x.id != id) }

/-- The operation of a chunk's next transaction. -/
def Bel.op (b : Bel) (c : Chunk) : XOp :=
  if c.reads then .read c.len
  else if b.atop = 0 then .write c.data
  else .atomic (if b.atop = 1 then .add else if b.atop = 2 then .addsH2 else .swap) (w32 (leNat (c.data.take 4)))

/-- The node and address of a chunk's next transaction. -/
def Bel.node (b : Bel) (c : Chunk) : BitVec 14 := if c.reads then b.snode else b.dnode
def Bel.addr (b : Bel) (c : Chunk) : Nat := if c.reads then b.srcAt c else b.dstAt c (c.len - c.data.length)

/-- The type, MOD and payload of the frame of a remote transaction (12 Table YL-5). -/
def Bel.wire (b : Bel) (c : Chunk) : Nat × Nat × List Word :=
  if c.reads then (0x01, c.len / 4 - 1, [])
  else if b.atop = 0 then (0x03, 0xF, wordsOf c.data)
  else (0x05, b.atop - 1, wordsOf (c.data.take 4))

/-- A chunk's next transaction leaves with a tag; without a route it ends at once as LINKFAIL. -/
def State.chunkSend (s : State) (e : Fin 2) (c : Chunk) (tag : Nat) : State :=
  let b := s.bel[e]
  let s1 := s.setChunk e { c with tag := some tag, answer := none }
  if s.isLocal (b.node c) then s1.xbIssue (s.belWho e) (b.addr c) (b.op c) (.bel e c.id)
  else
    let p := b.wire c
    match s1.sendRouted none (s1.frame p.1 (s.belWho e).mode (b.node c) tag 0x3F p.2.1 (w32 (b.addr c)) p.2.2) with
    | some s2 => s2
    | none => s1.unrouted.belEnd e c.id (none, 3)

/-- A chunk without a tag tries for one; the engine pauses while none is free. -/
def State.chunkTry (s : State) (e : Fin 2) (c : Chunk) : State :=
  if c.tag.isSome || c.answer.isSome then s
  else match s.takeTag (.bel e c.id) with
    | some (t, s1) => s1.chunkSend e c t
    | none => s.waitTag (.bel e c.id)

/-- The next chunk joins those in flight. -/
def State.chunkNew (s : State) (e : Fin 2) : State :=
  let b := s.bel[e]
  let z := b.chunkLen
  let c : Chunk := ⟨s.nextId + 1, b.issued, z, true, [], none, none⟩
  ({ s with nextId := s.nextId + 1 } : State).setBel e { b with issued := b.issued + z, chunks := b.chunks ++ [c] }

/-- Chunks are issued in address order, at most 4 in flight; after a failure nothing more is. -/
def State.belPump (s : State) (e : Fin 2) : Nat → State
  | 0 => s
  | n + 1 =>
    let b := s.bel[e]
    if b.phase != .run || b.err != 0 then s
    else
      let s1 := b.chunks.foldl (fun (s : State) c => s.chunkTry e c) s
      if b.chunks.length < 4 && b.issued < b.len then (s1.chunkNew e).belPump e n else s1

/-- A transaction of a chunk has been answered. -/
def State.chunkStep (s : State) (e : Fin 2) (c : Chunk) (r : Option (List Byte) × Nat) : State :=
  let s1 := match c.tag with
    | some t => if (s.lk.tags.any (fun x => x.1 == t && x.2.1 == TagUser.bel e c.id)) then s.dropTag t else s
    | none => s
  match r with
  | (none, why) => (s1.belFail e why).dropChunk e c.id
  | (some bs, _) =>
    if c.reads then s1.setChunk e { c with reads := false, data := bs, tag := none, answer := none }
    else
      let n := if (s.bel[e]).atop = 0 then c.data.length else 4
      let s2 := s1.modReg (belReg e 0x14) (fun w => w32 (w.toNat - n))
      if c.data.length ≤ n then s2.dropChunk e c.id
      else s2.setChunk e { c with data := c.data.drop n, tag := none, answer := none }

/-- After a failure, chunks with nothing in flight are given up. -/
def State.belCut (s : State) (e : Fin 2) : State :=
  let b := s.bel[e]
  if b.err = 0 then s
  else (b.chunks.filter (fun c => c.tag.isNone)).foldl (fun (s : State) c => (s.unwaitTag (.bel e c.id)).dropChunk e c.id) s

/-! ## The engine's events -/

/-- A descriptor starts: UTAG is shown and its first chunks go out. -/
def State.belStart (s : State) (e : Fin 2) : State :=
  let s1 := (s.setBel e { s.bel[e] with phase := .run }).modReg (belReg e 0xC) (fun w => putF w 16 16 (fld ((s.bel[e]).w 6) 0 16))
  s1.belPump e 5

/-- DESCRIPTOR_FETCH (R403, R404): one 2-beat burst; a bad descriptor, or one that cannot be fetched, stops the engine. -/
def execDescriptorFetch (e : Fin 2) (s : State) : Out :=
  let b := s.bel[e]
  if b.phase != .fetch then .next s
  else
    let a := (s.reg (belReg e 0x10)).toNat
    if b.err ≠ 0 then .next (s.setBel e { b with phase := .run, desc := [], chunks := [] })
    else if !s.descRegion e a then .next ((s.setBel e { b with phase := .run, desc := [], chunks := [] }).belFail e 5)
    else if s.dmaWaits a 32 then .next s
    else
      let r := s.access (s.belWho e) a (.read 32)
      if r.1.1 ≠ 0 then .next ((r.2.setBel e { b with phase := .run, desc := [], chunks := [] }).belFail e 1)
      else
        let d : Bel := { Bel.reset with phase := .run, desc := wordsOf r.1.2 }
        let s1 := (r.2.setBel e d).setReg (belReg e 0x14) (w32 d.len)
        if s1.descBad e d then .next (s1.belFail e 5)
        else if d.epw then .next (s1.setBel e { d with phase := .epw })
        else .next (s1.belStart e)

/-- EPW_START (R406): the system cycle after the tick edge. -/
def execEpwStart (e : Fin 2) (s : State) : Out :=
  if (s.bel[e]).phase = .due then .next (s.belStart e) else .next s

/-- CHUNK_COMPLETION (R405): the oldest answer of the engine's chunks is taken, and what can go out goes. -/
def execChunkCompletion (e : Fin 2) (s : State) : Out :=
  let s1 := match (s.bel[e]).chunks.findSome? (fun c => c.answer.map (fun r => (c, r))) with
    | some (c, r) => s.chunkStep e c r
    | none => s
  .next ((s1.belCut e).belPump e 5)

/-- Line 12, on every hearth (07 Table WG-4). -/
def State.line12 (s : State) : State := s.raiseAll 12

/-- DESCRIPTOR_DONE (R405): every write is acknowledged; the chain goes on with NEXT. -/
def execDescriptorDone (e : Fin 2) (s : State) : Out :=
  let b := s.bel[e]
  if b.phase = .run && b.err = 0 && b.chunks.isEmpty && b.issued == b.len && !b.desc.isEmpty then
    let s1 := s.count (belReg e 0x18)
    let s2 := if b.irq then (s1.modReg (belReg e 0xC) (fun w => setBit w 1 true)).line12 else s1
    .next (if b.next = 0 then s2.setBel e Bel.reset
      else (s2.setBel e { Bel.reset with phase := .fetch }).setReg (belReg e 0x10) (w32 b.next))
  else .next s

/-- BELLOWS_ERROR (R407): with nothing in flight a failed or aborted engine stops, with ERR, ERRC and line 12. -/
def execBellowsError (e : Fin 2) (s0 : State) : Out :=
  let s := s0.belCut e
  let b := s.bel[e]
  if b.phase != .idle && b.err != 0 && b.chunks.isEmpty then
    .next (((s.setBel e Bel.reset).modReg (belReg e 0xC) (fun w => setBit (putF w 4 3 b.err) 2 true)).line12)
  else .next s

end Sys2Proof.Machine
end

