-- ==== Sys2Proof/Machine/Frames.lean ====
section
/-!
DEFINITION. Frames as they arrive (12 R344, R348, R350, R354, R357, R359 to R362; 13 R373; 08 R243; 10 R285 to R290).
-/
namespace Sys2Proof.Machine
open Sys2Proof

/-! ## The columns of Table YL-5 -/

/-- A type that the table defines. -/
def isType (t : Byte) : Bool := within 0x01 t.toNat 0x12

/-- LEN, MOD and ADDR of a frame lie in its type's columns, and TC is its class. -/
def inColumns (f : Frame) : Bool :=
  let t := f.type.toNat
  let n := f.payload.length
  let m := f.mod.toNat
  f.tc == typeTc t &&
  (if t = 0x01 then n == 0 && (decide (m ≤ 63) || m == 0x80)
   else if t = 0x02 then decide (n ≤ 64) && decide (m ≤ 2)
   else if t = 0x03 then within 1 n 64 && (if n = 1 then decide (m ≤ 0xF) else m == 0xF)
   else if t = 0x04 then n == 0 && decide (m ≤ 2)
   else if t = 0x05 then n == 1 && decide (m ≤ 2)
   else if t = 0x06 then n == 1 && decide (m ≤ 2)
   else if t = 0x07 then within 1 n 8 && decide (m ≤ 31) && f.addr == 0
   else if t = 0x08 then n == 0 && decide (m ≤ 7) && f.addr == 0
   else if t = 0x09 then n == 4 && fld f.addr 17 7 == 0
   else if t = 0x0A then n == 0 && decide (m ≤ 2)
   else if t = 0x0B then n == 0 && decide (m ≤ 1) && fld f.addr 16 16 == 0
   else if t = 0x0C then n == 4 && m == 0 && f.addr == 0 && fld (f.payload.getD 1 0) 16 16 == 0
   else if within 0x0D t 0x0F then
     decide (m % 64 ≤ 32) && n == 2 + (m % 64 + 1) / 2 && f.addr == 0 && fld (f.payload.getD 1 0) 16 16 == 0
   else if t = 0x10 then n == 1 && m == 0 && f.addr == 0
   else if t = 0x11 then n == 1 && m == 0 && f.addr == 0
   else if t = 0x12 then n == 0 && within 1 m 3
   else false)

/-! ## Requests (R359, R360) -/

/-- The mode a frame acts in. -/
def frMode (f : Frame) : Mode := modeFor f.w f.sv

/-- The bytes a request touches. -/
def frSize (f : Frame) : Nat :=
  if f.type = 0x01 then (if f.mod = 0x80 then 2 else 4 * (f.mod.toNat + 1)) else 4 * f.payload.length

/-- Whether a request touches `lo`..`hi`. -/
def frHits (f : Frame) (lo hi : Nat) : Bool := decide (f.addr.toNat ≤ hi) && decide (lo < f.addr.toNat + (frSize f))

/-- What is never reached from another device. -/
def State.barred (s : State) (f : Frame) : Bool :=
  frHits f 0x12000000 0x1200FFFF || frHits f 0x400C0000 0x400CFFFF || frHits f 0x11000000 0x1100FFFF
    || frHits f 0x30000000 0x305FFFFF || (!s.remap && frHits f 0 0x1FFFFF)

/-- LRWBn, LRWLn and LRWAn. -/
def State.lrwBase (s : State) (n : Nat) : Nat := fld (s.reg (lctl + 0x100 + 12 * n)) 12 20 * 0x1000
def State.lrwLim (s : State) (n : Nat) : Nat := fld (s.reg (lctl + 0x104 + 12 * n)) 12 20 * 0x1000 + 0xFFF
def State.lrwAttr (s : State) (n : Nat) : Word := s.reg (lctl + 0x108 + 12 * n)

/-- The window that decides a request: the lowest-numbered enabled one that contains its first byte (R360). -/
def State.lrwOf (s : State) (a : Nat) : Option Nat :=
  (List.range 8).find? (fun n => tb (s.lrwAttr n) 5 && decide (s.lrwBase n ≤ a) && decide (a ≤ s.lrwLim n))

/-- A window gives the right a request needs. -/
def State.lrwRight (s : State) (n : Nat) (f : Frame) : Bool :=
  let w := s.lrwAttr n
  let rd := tb w (if f.w then 2 else 0)
  let wr := tb w (if f.w then 3 else 1)
  if f.type = 0x01 then rd else if f.type = 0x03 then wr else rd && wr && tb w 4

/-- A request passes the checks of Table YL-8. -/
def State.admits (s : State) (f : Frame) : Bool :=
  let c := s.reg lctl
  if !tb c 0 || (f.w && !tb c 1) then false
  else if s.barred f then false
  else if f.type = 0x05 && !within 0x20000000 f.addr.toNat 0x213FFFFF then false
  else if frHits f 0x13000000 0x130FFFFF then f.type == 0x01
  else match s.lrwOf f.addr.toNat with
    | some n => decide (f.addr.toNat + (frSize f) ≤ s.lrwLim n + 1) && s.lrwRight n f
    | none => false

/-- The runs of bytes of a WR: one whole, or those that the mask of its only word selects. -/
def maskRuns (m : Nat) : Nat → Option Nat → List (Nat × Nat)
  | 0, none => []
  | 0, some a => [(a, 4)]
  | n + 1, none => if m.testBit (3 - n) then maskRuns m n (some (3 - n)) else maskRuns m n none
  | n + 1, some a => if m.testBit (3 - n) then maskRuns m n (some a) else (a, 3 - n) :: maskRuns m n none

/-- The writes of a WR frame: addresses and bytes. -/
def frWrites (f : Frame) : List (Nat × List Byte) :=
  let bs := bytesOf f.payload
  if f.payload.length = 1 then
    (maskRuns f.mod.toNat 4 none).map (fun r => (f.addr.toNat + r.1, (bs.drop r.1).take (r.2 - r.1)))
  else [(f.addr.toNat, bs)]

/-- The link engine as a bus master in the world and level of a frame (R359). -/
def frWho (f : Frame) : Who := ⟨11, none, (frMode f)⟩

/-- A WR frame as one access: bytes in a row, or strobes with gaps, which end with KIND 4 (14 R388; log entry 15). -/
def State.linkWrites (s : State) (f : Frame) : List (Nat × List Byte) → State
  | [] => s.respond f 0 []
  | [(a, bs)] => s.xbIssue (frWho f) a (.write bs) (.link f)
  | _ => s.xbIssue (frWho f) f.addr.toNat (.gaps 4) (.link f)

/-- RD, WR or AT at its target: REFUSED, or an access by the link engine (R359). -/
def State.request (s : State) (f : Frame) : State :=
  if !s.admits f then ((s.count (lctl + 0x38)).linkEvent 8).respond f 1 []
  else if f.type = 0x01 then s.xbIssue (frWho f) f.addr.toNat (.read (frSize f)) (.link f)
  else if f.type = 0x03 then s.linkWrites f (frWrites f)
  else
    s.xbIssue (frWho f) f.addr.toNat
      (.atomic (if f.mod = 0 then .add else if f.mod = 1 then .addsH2 else .swap) (f.payload.getD 0 0)) (.link f)

/-! ## Responses (R357) -/

/-- A reply whose transaction has ended. -/
def State.late (s : State) : State := (s.count (lctl + 0x30)).linkEvent 7

/-- A response ends the transaction of its tag. -/
def State.ended (s : State) (f : Frame) (u : TagUser) : State :=
  let st := f.mod.toNat
  match u with
  | .far h id =>
    let half := (s.hearth h).far.any (fun x => x.id == id && x.kind == .ldhu)
    let v := f.payload.getD 0 0
    (s.farEnd h id (if st = 0 then .answered (if half then w32 (fld v 0 16) else v) else .failed 0x09)).dropTag f.tag
  | .bel e id =>
    (s.belEnd e id (if st = 0 then (some (bytesOf f.payload), 0) else (none, if st = 1 then 2 else 1))).dropTag f.tag
  | .post id =>
    match s.hub.outs.find? (fun o => o.id == id) with
    | some o => s.endOut o f.mod
    | none => s.dropTag f.tag
  | .halo h _ =>
    ((s.dropTag f.tag).modHearth h (fun x =>
      (if st = 0 then x else x.itemEnd 5).modFront (fun q => { q with remote := q.remote - 1 }))).pump h

def State.gotReply (s : State) (f : Frame) : State :=
  match s.tagUser f.tag f.gen with
  | some u => s.ended f u
  | none => s.late

/-- A FAIL ends the transaction of its tag with LINKFAIL (R352). -/
def State.gotFail (s : State) (f : Frame) : State :=
  match s.tagUser f.tag f.gen with
  | some u => s.endTag f.tag u 4
  | none => s.late

/-! ## Messages (13 R373) and halo entries (08 R243) -/

/-- An MB frame at its mailbox; the answer is the MBR. A refused one counts here as a refused post (log entry 37). -/
def State.gotMessage (s : State) (f : Frame) : State :=
  let n := 96 + f.mod.toNat % 32
  let s := s.beforePost n
  let c := s.mbcfg n
  if !mbEn c || mbG c != f.w || (f.w && !tb (s.reg lctl) 1) then (s.mbEvt 4).respond f 6 []
  else if (s.hearth (mbRcv c)).run = .held then (s.mbEvt 3).respond f 5 []
  else if 8 ≤ (s.box n).length + (s.outsOf n).length then ((s.mbEvt 0).count (mbox + 0x14)).respond f 1 []
  else
    (({ s with nextId := s.nextId + 1 } : State).setBox n
      (s.box n ++ [⟨s.nextId + 1, bytesOf f.payload, .node f.src, s.now⟩])).respond f 0 []

/-- Codes of T as the words of a halo entry hold them. -/
def codesOf (ws : List Word) : List Nat := ws.flatMap (fun w => [fld w 0 16, fld w 16 16])

/-- A remote halo entry: of another substep it is discarded, to a hearth that expects none it is refused. -/
def State.gotHalo (s : State) (f : Frame) : State :=
  let h := fin 64 (fld f.addr 11 6)
  if (fld f.addr 24 8, f.mod.toNat) ≠ s.subTag then s.modHearth h (fun x => x.count 0x464)
  else if fld ((s.hearth h).rd 0x458) 0 11 = 0 then s.respond f 1 []
  else
    ((s.portB (feltKey h (0x40000 + 16 * fld f.addr 0 11)) (bytesOf f.payload)).modHearth h
      (fun x => { x with frinGot := x.frinGot + 1 })).respond f 0 []

/-- Hearths that take part in a neighbourhood barrier or in steps. -/
def Hearth.neighbourly (h : Hearth) : Bool := tb (h.rd 0x460) 2 || tb (h.rd 0x460) 8

/-- A barrier token: kept for its barrier. One of a step whose tag is not that of the current substep is discarded (R243), and so is one
of SYNC whose count is neither that of the current barrier nor the next (log entry 13). -/
def State.gotStok (s : State) (f : Frame) : State :=
  let t : StepTok := ⟨f.src, tokBar f, fld f.addr 0 8, fld f.addr 8 8⟩
  if if t.bar = 0 then (t.count + 256 - s.felt.cnt0 % 256) % 256 ≤ 1 else (t.epoch, t.count) = s.subTag then
    (if s.felt.toks.contains t then s else { s with felt := { s.felt with toks := s.felt.toks ++ [t] } })
  else s.mapHearths (fun _ x => if x.neighbourly then x.count 0x464 else x)

/-! ## The epoch protocol (10 R285 to R290) -/

/-- The epoch of an ack, a supplement, a seal or a token. -/
def frEpoch (f : Frame) : Nat := (f.payload.getD 0 0).toNat + fld (f.payload.getD 1 0) 0 16 * 2 ^ 32

/-- An entry of a stale list from its 16 bits. -/
def entOf (n : Nat) : StaleEnt := ⟨BitVec.ofNat 14 (n % 2 ^ 14), n.testBit 14, n.testBit 15⟩

/-- The entries of an ack, a supplement or a seal, and OVF. -/
def frEnts (f : Frame) : List StaleEnt := ((codesOf (f.payload.drop 2)).take (f.mod.toNat % 64)).map entOf
def frOvf (f : Frame) : Bool := f.mod.getLsbD 6

/-- A frame of the epoch protocol acts if it comes from where the tree has it come from: tokens and seals from the
parent, acks and supplements from a child. -/
def State.gotEpoch (s : State) (p : Fin 4) (f : Frame) : State :=
  let up := s.epMember && parentOf s.ep.tree == some p
  let child := s.epFab && childOf s.ep.tree p
  if f.type = 0x0C then
    (if up then s.gotToken f (frEpoch f) ((f.payload.getD 2 0).toNat + (f.payload.getD 3 0).toNat * 2 ^ 32) else s)
  else if f.type = 0x0D then (if child then s.gotAck p f (frEpoch f) (frEnts f) (frOvf f) else s)
  else if f.type = 0x0E then (if child then s.gotSup f (frEpoch f) (frEnts f) (frOvf f) else s)
  else if up then s.relaySeal f ⟨(frEpoch f), (frEnts f), (frOvf f)⟩ else s

/-! ## Quench and reset (R361, R362) -/

/-- A remote quench: forwarded on every other UP port and acted on, once (11 R317). -/
def State.gotQuench (s : State) (p : Fin 4) (f : Frame) : State :=
  let w := f.payload.getD 0 0
  let k := (f.src.toNat, fld w 16 8)
  if s.lk.rqs.contains k then s
  else
    let s1 := (({ s with lk := { s.lk with rqs := (k :: s.lk.rqs).take 32 } } : State).flood (some p) f).remoteQuench f.src (fld w 0 16)
    if tb (s.reg damper) 0 then s1.count (lctl + 0x3C) else s1

/-- A remote reset: kind LINKR, or discarded (R362). -/
def State.gotReset (s : State) (f : Frame) : State :=
  let ok := fld (s.reg (lctl + 0x14)) 0 14
  if tb (s.reg lctl) 2 && (f.src.toNat == ok || ok == 0x3FFF) && f.w && f.sv && f.payload.getD 0 0 == 0x0000A55A then s.resetNow 5
  else s.linkEvent 9

/-! ## At the destination, and on the way -/

/-- A frame at its destination; one with a field outside its column is discarded. -/
def State.consume (s : State) (p : Fin 4) (f : Frame) : State :=
  let t := f.type.toNat
  if !inColumns f then s.dropped
  else if t = 0x01 || t = 0x03 || t = 0x05 then s.request f
  else if t = 0x02 || t = 0x04 || t = 0x06 || t = 0x08 || t = 0x0A then s.gotReply f
  else if t = 0x07 then s.gotMessage f
  else if t = 0x09 then s.gotHalo f
  else if t = 0x0B then s.gotStok f
  else if t = 0x10 then s.gotQuench p f
  else if t = 0x11 then s.gotReset f
  else if t = 0x12 then s.gotFail f
  else s.gotEpoch p f

/-- A frame that a port has taken in is consumed or forwarded (R341); a response that returns is kept to be sent again (R355). -/
def State.deliver (s : State) (p : Fin 4) (f : Frame) : State :=
  if f.ret && f.src == s.nodeId then (s.credBack p f).keepResp { f with ret := false }
  else if !f.ret && (f.dst == 0x3FFF || f.dst == s.nodeId) then (s.credBack p f).consume p f
  else if 255 ≤ f.hops then
    ((s.credBack p f).dropped.linkEvent 6).failFor f 2
  else s.forward ⟨f, some p, credArgs f⟩

/-- A request that an earlier one of its hearth, for the same node and held for its CFM, goes before (05 R142). -/
def goesAfter (l : List HeldFrame) (f : Frame) : Bool :=
  f.tc % 4 == 3 && l.any (fun h => h.frame.src == f.src && h.frame.hrt == f.hrt && h.frame.dst == f.dst)

/-- A frame with good checks and the expected number is taken in: ACK; WR and AT wait for their CFM, and what must follow one that waits
for it (R350, R354). -/
def State.takeIn (s : State) (p : Fin 4) (f : Frame) : State :=
  let s1 := (s.modPort p (fun x => { x with rx := (x.rx + 1) % 256 })).sendCtl p 0x01 (f.lseq % 256)
  if custody f || goesAfter (s.port p).held f then s1.modPort p (fun x => { x with held := x.held ++ [⟨f, s.now, s.now, !custody f⟩] })
  else s1.deliver p f

/-- Held frames that no longer wait, for a CFM or for one before them, go on their way in order, at most `n` of them. -/
def State.releaseHeld (s : State) (p : Fin 4) : Nat → State
  | 0 => s
  | n + 1 =>
    let l := (s.port p).held
    match (List.range l.length).find? (fun i => match l[i]? with
        | some h => h.free && !goesAfter (l.take i) h.frame
        | none => false) with
    | some i =>
      match l[i]? with
      | some h => ((s.modPort p (fun x => { x with held := x.held.eraseIdx i })).deliver p h.frame).releaseHeld p n
      | none => s
    | none => s

/-- CUSTODY_TIMEOUT (R354): no CFM 36 us after the ACK; the frame is discarded unperformed, and its credits go back. -/
def execCustodyTimeout (p : Fin 4) (s : State) : Out :=
  let gone := fun (h : HeldFrame) => !h.free && decide (h.acked + 36000 ≤ s.now)
  let l := (s.port p).held
  .next (((l.filter gone).foldl (fun (s : State) h => s.credBack p h.frame)
    (s.modPort p (fun x => { x with held := l.filter (fun h => !gone h) }))).releaseHeld p l.length)

/-- The TC0 frames of an input port that wait for their outputs; its buffer takes 8 (Table YL-6). -/
def State.tc0Waits (s : State) (p : Fin 4) : Nat :=
  allPorts.foldl (fun n q => n + ((s.port q).queue.filter (fun i => i.arr == some p && i.frame.tc % 4 == 0)).length) 0

/-- A frame found bad while it is forwarded cut-through: where it had an idle output with credits, the copy there ends with K30.7. It is
neither numbered nor held to be sent again (R344; log entry 50). -/
def State.cutCopy (s : State) (p : Fin 4) (f : Frame) : State :=
  if f.dst = 0x3FFF || f.dst = s.nodeId || 255 ≤ f.hops || custody f then s
  else
    let r := s.route (some p) f
    let x := s.port r.1
    if s.portUp r.1 && x.queue.isEmpty && decide (x.busy ≤ s.now) && x.hasCredit r.2 then
      s.modPort r.1 (fun x => { x with
        cut := x.cut ++ [{ x.stamp r.2 false with fcrc := f.fcrc, bad := true }], busy := s.now + frameTime f, outer := f.tc % 4 != 0 })
    else s

/-- A frame arrives at a port (R344, R350). One that ends with K30.7 is discarded (Table YL-1). -/
def State.arrive (s : State) (p : Fin 4) (f : Frame) : State :=
  if !s.portUp p || s.looped p then s
  else if f.hcrc != frameHcrc f then (s.portErr p 0).sendNak p
  else if f.bad then s.cutCopy p f
  else if f.fcrc != frameFcrc f then ((s.portErr p 0).sendNak p).cutCopy p f
  else
    let d := (f.lseq % 256 + 256 - (s.port p).rx % 256) % 256
    if d = 0 then (if f.tc % 4 = 0 && 8 ≤ s.tc0Waits p then s.sendNak p else s.takeIn p f)
    else if 128 ≤ d then (s.count (lctl + 0x2C)).sendCtl p 0x01 (f.lseq % 256)
    else s.sendNak p

/-- A row of Table YL-5: a frame of its type, or of an undefined one, which any row may bring. -/
def State.frameRow (s : State) (ty : Byte) (p : Fin 4) (f : Frame) : Out :=
  if f.type = ty || !isType f.type then .next (s.arrive p f) else .next s

/-- CFM (R354): the frame with this number is forwarded or performed. -/
def State.confirm (s : State) (p : Fin 4) (n : Nat) : State :=
  (s.modPort p (fun x => { x with held := x.held.map (fun (h : HeldFrame) =>
    if !h.free && h.frame.lseq % 256 == n then { h with free := true } else h) })).releaseHeld p (s.port p).held.length

def execCfm (p : Fin 4) (c : CtlWord) (s : State) : Out := s.portCtl p 0x03 c (fun s => s.confirm p (ctlArg c 1 1))

/-- RD (Table YL-5). -/
def execRd (p : Fin 4) (f : Frame) (s : State) : Out := s.frameRow 0x01 p f
/-- RDR (Table YL-5). -/
def execRdr (p : Fin 4) (f : Frame) (s : State) : Out := s.frameRow 0x02 p f
/-- WR (Table YL-5). -/
def execWr (p : Fin 4) (f : Frame) (s : State) : Out := s.frameRow 0x03 p f
/-- WRA (Table YL-5). -/
def execWra (p : Fin 4) (f : Frame) (s : State) : Out := s.frameRow 0x04 p f
/-- AT (Table YL-5). -/
def execAtReq (p : Fin 4) (f : Frame) (s : State) : Out := s.frameRow 0x05 p f
/-- ATR (Table YL-5). -/
def execAtr (p : Fin 4) (f : Frame) (s : State) : Out := s.frameRow 0x06 p f
/-- MB (Table YL-5). -/
def execMb (p : Fin 4) (f : Frame) (s : State) : Out := s.frameRow 0x07 p f
/-- MBR (Table YL-5). -/
def execMbr (p : Fin 4) (f : Frame) (s : State) : Out := s.frameRow 0x08 p f
/-- HALO (Table YL-5). -/
def execHalo (p : Fin 4) (f : Frame) (s : State) : Out := s.frameRow 0x09 p f
/-- HALOA (Table YL-5). -/
def execHaloa (p : Fin 4) (f : Frame) (s : State) : Out := s.frameRow 0x0A p f
/-- STOK (Table YL-5). -/
def execStok (p : Fin 4) (f : Frame) (s : State) : Out := s.frameRow 0x0B p f
/-- ETOK (Table YL-5). -/
def execEtok (p : Fin 4) (f : Frame) (s : State) : Out := s.frameRow 0x0C p f
/-- EACK (Table YL-5). -/
def execEack (p : Fin 4) (f : Frame) (s : State) : Out := s.frameRow 0x0D p f
/-- ESUP (Table YL-5). -/
def execEsup (p : Fin 4) (f : Frame) (s : State) : Out := s.frameRow 0x0E p f
/-- ESEAL (Table YL-5). -/
def execEseal (p : Fin 4) (f : Frame) (s : State) : Out := s.frameRow 0x0F p f
/-- RQ (Table YL-5). -/
def execRq (p : Fin 4) (f : Frame) (s : State) : Out := s.frameRow 0x10 p f
/-- RRST (Table YL-5). -/
def execRrst (p : Fin 4) (f : Frame) (s : State) : Out := s.frameRow 0x11 p f
/-- FAIL (Table YL-5). -/
def execFail (p : Fin 4) (f : Frame) (s : State) : Out := s.frameRow 0x12 p f

end Sys2Proof.Machine
end

