-- ==== Sys2Proof/Machine/Boot.lean ====
section
/-!
DEFINITION. Start-up: loading a slot, the calibration record, Hold and the release of the hearths (16 R425 to R439;
15 R420).
-/
namespace Sys2Proof.Machine
open Sys2Proof

/-! ## Device resets (17 R477) -/

/-- POR (17 Table PW-9): VDD_AON below its limit, or first power. -/
def execPor (s : State) : Out := .next (s.resetNow 0)

/-- BOR (17 Table PW-8): the VDD_IO monitor, or with `vin` the fall of VIN_PG in Blaze or Banked, which is BORIN too. -/
def execBor (vin : Bool) (s : State) : Out :=
  if vin && 2 ≤ s.pw.st then .next s
  else .next (let s1 := s.resetNow 1
              if vin then s1.modReg (aon + 4) (fun w => setBit w 7 true) else s1)

/-- PIN_RESET (17 Table PW-9): RESET_N low for 1 us or more. -/
def execPinReset (s : State) : Out := .next (s.resetNow 2)

/-- DRAUGHT_RESET (07 R217): 100 us after an expiry that calls for it. -/
def execDraughtReset (d : Draught) (s : State) : Out :=
  match (s.draught d).exp with
  | some t => if s.dgResets d && decide (t + 100000 ≤ s.now) then .next (s.resetNow 3) else .next s
  | none => .next s

/-! ## The calibration record (15 R420, Table ME-5) -/

/-- Word `o` of the record at flash offset `c`. -/
def State.calW (s : State) (c o : Nat) : Word := s.rd32 (flashKey (c + o))

/-- Magic, version, length and CRC-32 of the record. -/
def State.calOk (s : State) (c : Nat) : Bool :=
  s.calW c 0 == 0x4C435842 && s.calW c 4 == 0x02000001 && s.calW c 0x1FC == crc32 (s.bytes (flashKey c) 0x1FC)

/-- ACGn, ACOn and ACJOFS from the record, or the nominal values with CALBAD. -/
def State.calLoad (s : State) (c : Nat) : State :=
  let ok := s.calOk c
  let s1 := (List.range 48).foldl (fun (s : State) n =>
    (s.setReg (afeB + 0x200 + 8 * n) (if ok then s.calW c (0x10 + 8 * n) else 0x00400000)).setReg
      (afeB + 0x204 + 8 * n) (if ok then s.calW c (0x14 + 8 * n) &&& 0x07FFFFFF else 0)) s
  let s2 := (s1.setReg (afeB + 0x044) (if ok then s.calW c 0x190 else 0)).setReg
    (afeB + 0x048) (if ok then w32 (fld (s.calW c 0x194) 0 16) else 0)
  let s3 := s2.setAfe { s2.afe with bad := !ok }
  if ok then s3 else s3.afeEvent 3

/-! ## The register list (R436) -/

/-- The boot sequencer as a master. -/
def bootWho : Who := ⟨0, none, .gs⟩

/-- One pair, applied to the register's REGS-loaded fields as a write from GS; PWOP waits for stage 9 (17 R478). -/
def State.regPair (s : State) (p : Nat × Word) : State :=
  match s.seeMask p.1 with
  | none => s
  | some m =>
    if p.1 = pwr + 4 then s.modReg (pwr + 4) (fun w => opWritten w p.2)
    else match s.blockWrite bootWho ((p.1 - 0x40000000) / 0x10000) (p.1 % 0x10000) (blend (s.reg p.1) p.2 m) with
      | .ok s1 => s1
      | .error _ => s

def State.regList (s : State) (b : Bool) : State := (s.regPairs b).foldl (fun (s : State) p => s.regPair p) s

/-! ## A failed slot (R437, R438) -/

/-- The code and offset of a slot's first failure are recorded. -/
def State.slotErr (s : State) (b : Bool) (code off : Nat) : State :=
  s.setReg (patB + (if b then 0x00C else 0x008)) (w32 (code % 2 ^ 8 + off % 2 ^ 24 * 2 ^ 8))

/-- The store that a section wrote is cleared. -/
def State.clearSect (s : State) (x : Sect) : State :=
  match x.ty with
  | 2 => s.clearRange 0x38000000 0x38080000
  | 4 => s.clearRange 0x38000000 0x38080000
  | 3 => s.clearRange (progKey (fin 8 x.index) 0 0) (progKey (fin 8 x.index) 0 0x60000)
  | 5 => s.clearRange (setBase false) (setBase false + 0x1000)
  | 6 =>
    if x.flags = 1 then allHearths.foldl (fun (s : State) h => s.clearRange (matKey h false) (matKey h false + 0x1000)) s
    else s.clearRange (matKey (fin 64 x.index) false) (matKey (fin 64 x.index) false + 0x1000)
  | 7 => s.clearRange (0x20000000 + x.index * 0x50000) (0x20000000 + (x.index + (x.size + 0x4FFFF) / 0x50000) * 0x50000)
  | 9 => s.clearRange 0x10000000 0x10200000
  | 10 => s.clearRange 0x12000000 0x12010000
  | _ => s

/-- What start-up makes of one slot: its failure recorded, and what it wrote cleared, or the loaded state. -/
def State.trySlot (s0 : State) (b : Bool) : Except State State :=
  let s := { s0 with free := s0.free + 1 }
  match s.slotFails b (Config.flashFail s0.free) with
  | some ((code, off), began) =>
    let s1 := s.slotErr b code off
    .error (if began then (s.sects b).foldl (fun (s : State) x => s.clearSect x) s1 else s1)
  | none => .ok (s.loadAll b ⟨0, false, false, false⟩ true)

/-! ## Release and Hold (R425 stages 7 to 9, R426, R439) -/

/-- The damper's set 0 becomes active: its windows and the absence counts of its channels start (11 R310, R312). -/
def State.firstSet (s : State) : State :=
  ((List.finRange 16).foldl (fun (s : State) g => s.startWin g s.dnow) { s with dset := false }).newLimits (fun _ => false)

/-- Stages 7 to 9 for a slot whose sections are loaded. -/
def State.bootFrom (s : State) (b : Bool) : State :=
  let s1 := ((s.regList b).calLoad (s.patW b 0x10).toNat).setReg (patB + 0x014) (s.patW b 0x14)
  let lc := s.patLc b
  let s2 := (({ s1 with bank := 0, blksel := false, mtab := false, lc := BitVec.ofNat 2 lc,
                             stks := s1.stks.map (fun (x : Stack) => { x with lc := BitVec.ofNat 2 lc, due := false }) } : State).setPat
    { s1.pat with bslot := b, aslot := b, slc := lc, aprog := progOf (s.sects b) }).firstSet
  let s3 := s2.mapHearths (fun h x =>
    { x with run := if s2.entRun false h then .running else .held, mode := .gs, ml := 0
             pc := s2.entStart false h, gsh := s2.entGsh false h })
  let s4 := { s3 with hrst := 0, xb := { s3.xb with released := true } }
  (((s4.setReg (sysB + 4) 1).setPw { s4.pw with booted := true }).opAll).sweep

/-- Hold: the loader of the boot ROM runs on hearth 0 from bank 0 of stack 0 (log entry 3). -/
def State.enterHold (s : State) : State :=
  let s1 := s.setBytes (progKey 0 0 0) (s.bytes 0x11000000 0x10000)
  let s2 := s1.mapHearths (fun h x => if h = 0 then { x with run := .running, mode := .gs, ml := 0, pc := 0 } else { x with run := .held })
  let s3 := { s2 with hrst := 0, xb := { s2.xb with released := true } }
  (s3.setPw { s3.pw with booted := true, hold := true }).sweep

/-- Stage 1 (R425, 17 R459, R462, R463): the clocks run, and the regulator is set to the target of OP0. START_UP stands for a start whose
clocks and regulator came up (log entry 45). -/
def State.railsUp (s : State) : State :=
  let s1 := (s.accrue.setPw { s.accrue.pw with ref := true, lf := true, vmode := Config.voutMode }).pmbOperation 0x80
  let s2 := ((s1.pmbus true 0x20 []).setVin (s1.vinFor 0 0)).pmbus true 0x79 []
  if s2.dm.bk then s2.setBk false else s2

/-- START_UP (R425, R429, R438, R439): the slot that PREF names is tried first, then the other. -/
def State.startUp (s0 : State) : State :=
  let s := s0.railsUp
  if s.sec.cycle != 1 && s.sec.cycle != 2 then ((s.slotErr false 0x0C 0).slotErr true 0x0C 0).enterHold
  else
    let pref := tb (s.reg (patB + 0x010)) 0
    match s.trySlot pref with
    | .ok s1 => s1.bootFrom pref
    | .error s1 => match s1.trySlot (!pref) with
      | .ok s2 => s2.bootFrom (!pref)
      | .error s2 => s2.enterHold

def execStartUp (s : State) : Out :=
  if s.pw.booted || s.pw.rst.isSome || s.pw.st != 0 then .next s else .next s.startUp

end Sys2Proof.Machine
end

