-- ==== Sys2Proof/Machine/Tick.lean ====
section
/-!
DEFINITION. The tick edge: the flip, the swap of a reblock, the hand-over of ECMT, and the edge's arrival at the stacks
(10 R278 to R280, R284, R285, R290, R292, R519; 16 R445 to R447; 06 R175).
-/
namespace Sys2Proof.Machine
open Sys2Proof

/-! ## Before the edge -/

/-- The vector of the edge before has arrived, EPDL lies before this edge, every copy of the epoch has ended by it (R277), and the front end has latched its samples (15 R417). -/
def State.closeEpoch (s00 : State) : State :=
  let s0 := s00.vectorIn
  let s := if s0.afe.edge && s0.afeRuns then s0.samples else s0
  let s1 := if s.ep.epdlGone then s else s.passEpdl
  s1.ep.copies.foldl (fun (s : State) c => s.copySlice c.1 c.2) s1

/-- Page N is formed (Table MN-2). -/
def Ep.flip (e : Ep) : Ep :=
  { e with
    maps := Vector.ofFn (fun (h : Hid) => (e.maps[h]).flip (e.ecmt.getLsbD h.val))
    pgC := some e.cur, pgC1 := e.pgC, pgC2 := e.pgC1, copies := [] }

/-! ## The swap of a reblock (16 R445 to R447) -/

/-- A hearth is parked at PARK of the active entry table (R445). -/
def State.parked (s : State) (h : Hid) : Bool :=
  let x := s.hearth h
  x.wait == .epwait && x.pc == s.entPark s.blksel h && x.entry.isNone && x.ewtV && x.lpa == 0 && x.remain == 0 && !x.pbrV

/-- The hearths that must be parked and are not. -/
def State.unparked (s : State) : List Hid := allHearths.filter (fun h => (s.hearth h).runs && !s.parked h)

/-- An arm ends without a swap. -/
def State.rbGiveUp (s : State) (why : Nat) : State := (s.modReg rbst (fun w => w &&& ~~~3)).rbAbort why

/-- Bits of 64 hearths in two registers. -/
def State.setPair (s : State) (a : Nat) (hs : List Hid) : State :=
  let n := hs.foldl (fun (n : Nat) h => n + 2 ^ h.val) 0
  (s.setReg a (w32 n)).setReg (a + 4) (w32 (n / 2 ^ 32))

/-- The selectors reach a stack (R446): its buffered lines go into the old bank first, its crowns, branch buffers and prefetch are
invalid, and MLAT takes the class. -/
def State.takeSelectors (s : State) (k : Fin 8) : State :=
  if (s.stack k).due then
    let s1 := s.patchFlush k
    let s2 := ({ s1 with bank := s1.bank ^^^ BitVec.ofNat 8 (2 ^ k.val) } : State).setStack k { s1.stack k with due := false, lc := s1.lc }
    (hearthsOf k).foldl (fun (s : State) h => s.modHearth h (fun x => x.invalidate)) s2
  else s

/-- A burst that block RAM has granted ends under the old selectors (R446). -/
def State.bramBurst (s : State) : State :=
  match s.xb.busy[4] with
  | some r => s.burst 4 r
  | none => s

/-- The selectors switch (R446, R447): block RAM and material table at once, each stack's with the edge's arrival there (at once where
its clock stands, log entry 54), the damper's set with the vector. -/
def State.swapBlock (s0 : State) : State :=
  let s := ((List.finRange 8).foldl (fun (s : State) k => s.takeSelectors k) s0).bramBurst
  let s1 := ({ s with blksel := !s.blksel, mtab := !s.mtab, lc := BitVec.ofNat 2 s.pat.slc,
                      stks := s.stks.map (fun (x : Stack) => { x with due := true }) } : State).setPat
    { s.pat with slc := s.lc.toNat, aprog := s.pat.sprog, sprog := s.pat.aprog, aslot := s.pat.sslot, sslot := s.pat.aslot, staged := true }
  let s2 := (s1.setReg (patB + 0x014) (s.reg (patB + 0x018))).setReg (patB + 0x018) (s.reg (patB + 0x014))
  let s3 := (s2.modReg rbst (fun w => (w &&& ~~~3) ||| 4)).raiseAll 15
  let s4 := s3.mapHearths (fun h x => { x with resume := x.runs, gsh := s3.entGsh s3.blksel h })
  (List.finRange 8).foldl (fun (s : State) k => if s.stackRuns k then s else s.takeSelectors k) s4

/-- The reblock due at the edge that starts epoch `n`, and whether it took place. -/
def State.reblock (s : State) (n : Nat) : State × Bool :=
  if !s.armed || n != s.pat.armE then (s, false)
  else
    let w := s.reg rbst
    if tb w 8 && !tb w 1 then (s.rbGiveUp 9, false)
    else if s.unparked.isEmpty then (s.swapBlock, true)
    else ((s.setPair (patB + 0x040) s.unparked).rbGiveUp 8, false)

/-! ## The epoch that starts -/

/-- A step of disciplined time due at this edge (R295). -/
def State.tdStep (s : State) : State :=
  match s.ep.step with
  | none => s
  | some d =>
    (((s.setEp { s.ep with step := none } : State).count (epoch + 0x07C)).epEvent 6 |> fun t => { t with td := (Int.ofNat t.td + d).toNat })

/-- LOCK of a device that follows the IEEE 1588 clock (R295): an epoch in which the slew was at its limit, or one below it. -/
def State.slewLock (s : State) : State :=
  let s1 := s.setEp { s.ep with atLim := false }
  if s.epMember || s.epTsrc ≠ 1 then s1 else if s.ep.atLim then s1.unlock else s1.lockStep

/-- The master sends the tick token (R285). -/
def State.sendToken (s : State) : State :=
  if s.epFab && s.epMst then
    s.sendPorts (childrenOf s.ep.tree) (s.epFrame 0x0C 0 (twoWords s.ep.cur ++ twoWords s.ep.edge))
  else s

/-- Epoch `n` starts with its edge at `t`: the new settings, the record of its decision, and line 3 (Table MN-3). Without
participants its decision is COMPLETE at once. -/
def State.startEpoch (s : State) (n t : Nat) : State :=
  let s1 := s.epLoad
  let d : EpDec := ⟨n, t, s1.ep.fdl, s1.ep.sdl, s1.ep.tree, if s1.ep.part = 0 then some true else none, [], [], false, false, false, false⟩
  let s2 := s1.setEp { s1.ep with
    started := true, cur := n, edge := t, ecmt := 0, epdlGone := false, dec := d :: s1.ep.dec.take 1
    noToken := if s1.ep.heard then 0 else s1.ep.noToken + 1, heard := false, resync := none }
  let s3 := { s2 with bel := s2.bel.map (fun (b : Bel) => if b.phase = BelPhase.epw then { b with phase := BelPhase.due } else b) }
  ((s3.setAfe { s3.afe with edge := true }).raiseAll 3).tdStep.sendToken

/-- A seal held pending is applied at the edge, which opens the gate (R290). -/
def State.heldAtEdge (s : State) : State :=
  match s.ep.heldSeal with
  | some x => if x.epoch < s.ep.cur then (s.setEp { s.ep with heldSeal := none }).applySeal x else s
  | none => s

/-- The seal of a device that stands alone: applied in the cycle after the flip (R284). -/
def State.ownSeal (s : State) (n : Nat) : State :=
  if s.epFab then s
  else s.setEp { s.ep with heldSeal := some ⟨n, if s.ep.elate = 0 then [] else [⟨s.nodeId, false, true⟩], false⟩ }

/-- The tick edge that ends epoch N (Table MN-3). The vector names the participants that committed on time (11 R322; log
entry 49). -/
def State.tickEdge (s0 : State) : State :=
  let s1 := s0.closeEpoch
  let e := s1.ep
  let n1 := e.resync.getD (e.cur + 1)
  let s2 := s1.setEp e.flip
  let r := s2.reblock n1
  let late := e.part &&& ~~~e.ecmt
  let s3 := r.1.setEp { r.1.ep with elate := late, dpart := late != 0, gate := false }
  let s4 := if late = 0 then s3 else s3.epEvent 0
  let s5 := (s4.slewLock.startEpoch n1 (e.edge + e.per * 1000))
  let s6 := { s5 with dm := { s5.dm with vec := some ⟨e.ecmt &&& e.part, r.2, s5.ep.per * 1000⟩ } }
  (s6.heldAtEdge.ownSeal e.cur).progress n1

/-- TICK_EDGE (R280): P after the edge before; none runs in Ember and Cold (R293). -/
def execTickEdge (s : State) : Out :=
  if s.ep.started && decide (s.pw.st < 2) && decide (s.ep.edge + s.ep.per * 1000 ≤ s.td) then .next s.tickEdge else .next s

/-- The instant of the first edge and the epoch it starts, once it may come (R519). -/
def State.firstEdge (s : State) : Option (Nat × Nat) :=
  if s.ep.started || !s.epRun || s.ep.per == 0 || decide (2 ≤ s.pw.st) then none
  else if !s.epMember then some (s.td, 1)
  else match s.ep.token with
    | none => none
    | some (n, t) =>
      let at' := t + s.ep.per * 1000
      if s.td < at' then none else some (if s.td < at' + 8 then at' else s.td, n + 1)

/-- FIRST_TICK_EDGE (R519): no page is formed and no vector handed on; the gate opens at once. -/
def execFirstTickEdge (s : State) : Out :=
  match s.firstEdge with
  | none => .next s
  | some (t, n) =>
    let s1 := s.setEp { s.ep with
      gate := true, maps := s.ep.maps.map (fun (m : SliceMap) => { m with fill := fillFrame m.c m.c1 m.c2 }) }
    .next ((s1.startEpoch n t).progress n)

/-! ## The edge at a stack (06 R175; 05 R149, R150, R154) -/

/-- The edge reaches a hearth: EPST.CMT ends, an alarm not fired is discarded, and EPWAIT ends at its target, unless an entry that
saves the EPWAIT word's PC has begun (05 R154). -/
def State.edgeAt (s : State) (h : Hid) : State :=
  let s1 := (s.modHearth h (fun x => { (x.wr 0x41C 0) with armed := false, cmtEdge := true, frinGot := 0 })).modEpst h (fun w => setBit w 25 false)
  let x := s1.hearth h
  if x.runs && x.wait == .epwait && x.entry.isNone && s1.ewtReached h then s1.epwaitEnd h else s1

/-- TICK_EDGE_ARRIVAL (06 R175): the edge reaches the eight hearths of a stack, with the selectors of a reblock. -/
def execTickEdgeArrival (k : Fin 8) (s : State) : Out :=
  let x := s.stack k
  if !s.stackRuns k || !s.ep.started || (x.epoch == s.ep.cur && x.edge == s.ep.edge) then .next s
  else .next ((hearthsOf k).foldl (fun (s : State) h => s.edgeAt h)
    ((s.setStack k { x with epoch := s.ep.cur, edge := s.ep.edge }).takeSelectors k))

end Sys2Proof.Machine
end

