-- ==== Sys2Proof/Machine/Service.lean ====
section
/-!
DEFINITION. The Ethernet and USB rings, DFU, and KSP (18 R485, R486, R489 to R494), and the passing of time on an empty
queue (log entry 1).
-/
namespace Sys2Proof.Machine
open Sys2Proof

/-! ## Accesses of the Ethernet and USB masters -/

def ethWho : Who := ⟨12, none, .pu⟩
def usbWho : Who := ⟨13, none, .pu⟩

/-- Bytes written in bursts that cross no 256-byte boundary; whether all went well, and the state. -/
def State.store (s : State) (w : Who) (a : Nat) (bs : List Byte) : Nat → Bool × State
  | 0 => (true, s)
  | k + 1 =>
    if bs.isEmpty then (true, s)
    else
      let n := 256 - a % 256
      let r := s.access w a (.write (bs.take n))
      if r.1.1 = 0 then r.2.store w (a + n) (bs.drop n) k else (false, r.2)

/-- `n` bytes read in such bursts; none after a bus error. -/
def State.fetchBytes (s : State) (w : Who) (a n : Nat) : Nat → Option (List Byte) × State
  | 0 => (some [], s)
  | k + 1 =>
    if n = 0 then (some [], s)
    else
      let m := min n (256 - a % 256)
      let r := s.access w a (.read m)
      if r.1.1 ≠ 0 then (none, r.2)
      else
        let q := r.2.fetchBytes w (a + m) (n - m) k
        (q.1.map (fun bs => r.1.2 ++ bs), q.2)

/-! ## Ethernet (R485 to R487) -/

def State.ethRxen (s : State) : Bool := tb (s.reg ethB) 0
def State.ethTxen (s : State) : Bool := tb (s.reg ethB) 1

/-- A bus error stops both rings (R486). -/
def State.ethStop (s : State) : State := (s.setHost { s.host with stop := true, txGo := false }).ethEvent 3

/-- The address of a descriptor: ring base, 16 bytes each. -/
def State.descAt (s : State) (base i : Nat) : Nat := (s.reg (ethB + base)).toNat / 16 * 16 + 16 * i

/-- The timestamp of a frame of `n` bytes that has just ended, to the resolution of its rate (R487; log entry 16). -/
def State.stamp (s : State) (n : Nat) : Nat :=
  let fast := tb (s.reg ethB) 2
  let t := s.ptpNs - n * 8 * (if fast then 10 else 100)
  t - t % (if fast then 20 else 200)

/-- The Ethertype of a frame, past a VLAN tag, and where its content starts. -/
def etherType (f : List Byte) : Nat × Nat :=
  let t := beNat ((f.drop 12).take 2)
  if t = 0x8100 then (beNat ((f.drop 16).take 2), 18) else (t, 14)

/-- A PTP event message: Ethertype 0x88F7, or UDP destination port 319. -/
def isPtp (f : List Byte) : Bool :=
  let e := etherType f
  let ip := f.drop e.2
  let b := fun (i : Nat) => (ip.getD i 0).toNat
  e.1 == 0x88F7
    || (e.1 == 0x0800 && b 9 == 17 && beNat ((ip.drop (b 0 % 16 * 4 + 2)).take 2) == 319)
    || (e.1 == 0x86DD && b 6 == 17 && beNat ((ip.drop 42).take 2) == 319)

/-- Words 2 and 3 of a descriptor with a timestamp. -/
def stampWords (t : Nat) : List Byte := leBytes 4 (t % 1000000000) ++ leBytes 4 (t / 1000000000)

/-- A frame goes into the buffer of receive descriptor `d` at `a`, and OWN is cleared. -/
def State.ethPut (s : State) (a : Nat) (d : List Word) (f : List Byte) : State :=
  let w1 := d.getD 1 0
  let ts := tb (s.reg ethB) 5 || isPtp f
  let r := s.store ethWho (d.getD 0 0).toNat f 8
  if !r.1 then r.2.ethStop
  else
    let q := if ts then r.2.store ethWho (a + 8) (stampWords (s.stamp (f.length + 4))) 2 else r
    if !q.1 then q.2.ethStop
    else
      let v := setBit (putF (w1 &&& 0xFFF0F800) 0 11 f.length) 17 ts ||| (w1 &&& 0x00080000)
      let z := q.2.store ethWho (a + 4) (leBytes 4 v.toNat) 2
      if !z.1 then z.2.ethStop
      else (z.2.setHost { z.2.host with rxAt := if tb w1 19 then 0 else z.2.host.rxAt + 1 }).ethEvent 0

/-- ETH_RECEIVE (R485, R486): a frame with its FCS; the buffer receives it without (log entry 17). -/
def execEthReceive (f : List Byte) (s : State) : Out :=
  let n := f.length - 4
  let bad := f.length < 4 || leNat (f.drop n) != (crc32 (f.take n)).toNat
  if !s.ethRxen || 2 ≤ s.pw.st || 1522 < f.length then .next s
  else if bad then .next (s.count (ethB + 0x024))
  else if s.host.stop || s.dmaWaits (s.descAt 0x010 s.host.rxAt) 16 then .next s
  else
    let a := s.descAt 0x010 s.host.rxAt
    let r := s.fetchBytes ethWho a 16 2
    .next (match r.1 with
      | none => r.2.ethStop
      | some bs =>
        let d := wordsOf bs
        if !tb (d.getD 1 0) 16 then r.2.ethEvent 2
        else if s.dmaWaits (d.getD 0 0).toNat n then s
        else r.2.ethPut a d (f.take n))

/-- A transmit frame has left with its FCS: kind 0 of what leaves; OWN is cleared, and the next descriptor follows. -/
def State.ethSent (s : State) (a : Nat) (d : List Word) (bs : List Byte) : State :=
  let w1 := d.getD 1 0
  let s1 := s.emit 0 0 (bs ++ leBytes 4 (crc32 bs).toNat)
  let q := if tb w1 17 then s1.store ethWho (a + 8) (stampWords (s.stamp (bs.length + 4))) 2 else (true, s1)
  if !q.1 then q.2.ethStop
  else
    let z := q.2.store ethWho (a + 4) (leBytes 4 (setBit w1 16 false).toNat) 2
    if !z.1 then z.2.ethStop
    else (z.2.setHost { z.2.host with txAt := if tb w1 19 then 0 else z.2.host.txAt + 1 }).ethEvent 1

/-- ETH_TRANSMIT_DONE (R486): the frame of the next descriptor in ring order has been sent; without one the scan ends. -/
def execEthTransmitDone (s : State) : Out :=
  if !s.ethTxen || !s.host.txGo || s.host.stop || 2 ≤ s.pw.st || s.dmaWaits (s.descAt 0x014 s.host.txAt) 16 then .next s
  else
    let a := s.descAt 0x014 s.host.txAt
    let r := s.fetchBytes ethWho a 16 2
    .next (match r.1 with
      | none => r.2.ethStop
      | some bs =>
        let d := wordsOf bs
        if !tb (d.getD 1 0) 16 then r.2.setHost { r.2.host with txGo := false }
        else if s.dmaWaits (d.getD 0 0).toNat (fld (d.getD 1 0) 0 11) then s
        else
          let q := r.2.fetchBytes ethWho (d.getD 0 0).toNat (fld (d.getD 1 0) 0 11) 10
          match q.1 with
          | none => q.2.ethStop
          | some b => q.2.ethSent a d b)

/-! ## The CDC rings (R489) -/

/-- Base and size of a ring; none while SZ is not set. -/
def State.cdcRing (s : State) (o : Nat) : Option (Nat × Nat) :=
  let w := s.reg (usbB + o)
  if within 6 (fld w 0 5) 16 then some (w.toNat / 64 * 64, 2 ^ fld w 0 5) else none

/-- Bytes into a ring from write pointer `p`; whether all went well. -/
def State.ringPut (s : State) (base z p : Nat) : List Byte → Bool × State
  | [] => (true, s)
  | b :: r =>
    let q := s.access usbWho (base + p % z) (.write [b])
    if q.1.1 = 0 then q.2.ringPut base z (p + 1) r else (false, q.2)

/-- BULK_OUT (R489): a packet that finds room enters the RX ring, else it is answered with NAK (log entry 18). -/
def execBulkOut (d : List Byte) (s : State) : Out :=
  match s.cdcRing 0x020 with
  | none => .next s
  | some (base, z) =>
    let wp := (s.reg (usbB + 0x024)).toNat % z
    let rp := (s.reg (usbB + 0x028)).toNat % z
    if !s.host.conf || !s.usbOn || s.dmaWaits base z || 64 < d.length || (rp + z - 1 - wp) % z < d.length then .next s
    else
      let r := s.ringPut base z wp d
      .next (if r.1 then (r.2.setReg (usbB + 0x024) (w32 ((wp + d.length) % z))).usbEvent 0 else r.2)

/-- Bytes out of a ring from read pointer `p`; none after a bus error. -/
def State.ringTake (s : State) (base z p : Nat) : Nat → Option (List Byte) × State
  | 0 => (some [], s)
  | n + 1 =>
    let q := s.access usbWho (base + p % z) (.read 1)
    if q.1.1 ≠ 0 then (none, q.2)
    else
      let r := q.2.ringTake base z (p + 1) n
      (r.1.map (fun bs => q.1.2 ++ bs), r.2)

/-- BULK_IN (R489): at most `n` bytes, a packet, leave the TX ring: kind 1 of what leaves. -/
def execBulkIn (n : Nat) (s : State) : Out :=
  match s.cdcRing 0x030 with
  | none => .next s
  | some (base, z) =>
    let wp := (s.reg (usbB + 0x034)).toNat % z
    let rp := (s.reg (usbB + 0x038)).toNat % z
    let k := min (min n 64) ((wp + z - rp) % z)
    if !s.host.conf || !s.usbOn || s.dmaWaits base z || k = 0 then .next s
    else
      let r := s.ringTake base z rp k
      .next (match r.1 with
        | none => r.2
        | some bs => ((r.2.setReg (usbB + 0x038) (w32 ((rp + k) % z))).emit 1 0 bs).usbEvent 1)

/-! ## DFU (R490) -/

/-- An address lies within the pattern of the active slot, outside Hold (16 R443). -/
def State.protects (s : State) (a : Nat) : Bool :=
  let lo := slotBase s.pat.aslot
  !s.pw.hold && decide (lo ≤ a) && decide (a < lo + s.patLen s.pat.aslot)

/-- The 4 KiB sector at `a` erased and programmed from its start. -/
def State.sector (s : State) (a : Nat) (d : List Byte) : State := (s.fill (flashKey a) 0xFF 0x1000).flashProg a d

/-- DFU is served: not in SCRAPPED, where the loader reports state only (16 Table PA-7). -/
def State.dfuOn (s : State) : Bool := s.host.conf && s.usbOn && s.sec.cycle != 4

/-- DFUEN, which the loader gives itself in Hold; in DEPLOYED a download needs USBCTL.AUTH. -/
def State.dfuMay (s : State) : Bool :=
  (tb (s.reg usbB) 1 || s.pw.hold) && !(s.sec.cycle == 2 && !tb (s.reg usbB) 2)

/-- DFU in its error state, 10, with a status. -/
def State.dfuErr (s : State) (st : Nat) : State := s.setHost { s.host with dfu := 10, dfuSt := st }

/-- A download block: the first condition of R490 that holds, or the sector is written. -/
def State.dfuBlock (s : State) (alt : Bool) (n : Nat) (d : List Byte) : State :=
  let a := slotBase alt + n * 0x1000
  if !s.dfuMay then s.dfuErr 0x0B
  else if s.protects a || s.pat.stage == some alt then s.dfuErr 0x03
  else if 0x1000000 ≤ n * 0x1000 || Config.flashBytes ≤ a then s.dfuErr 0x08
  else (s.sector a d).setHost { s.host with dfu := 5, dfuSt := 0 }

/-- DFU_DOWNLOAD (R490): in dfuIDLE 2 or dfuDNLOAD-IDLE 5; a block without data ends the download (log entry 19). -/
def execDfuDownload (alt : Bool) (n : Half) (d : List Byte) (s : State) : Out :=
  if !s.dfuOn || 0x1000 < d.length then .next s
  else if d.isEmpty then
    .next (if s.host.dfu = 5 then (s.setHost { s.host with dfu := 2 }).usbEvent 2 else s.dfuErr 0x0F)
  else if s.host.dfu = 2 || s.host.dfu = 5 then .next (s.dfuBlock alt n.toNat d)
  else .next (s.dfuErr 0x0F)

/-- DFU_UPLOAD (R490): block `n` of a slot: kind 2 of what leaves; a short block ends the upload. -/
def execDfuUpload (alt : Bool) (n : Half) (s : State) : Out :=
  if !s.dfuOn then .next s
  else if s.host.dfu ≠ 2 && s.host.dfu ≠ 9 then .next (s.dfuErr 0x0F)
  else
    let z := min 0x1000000 (Config.flashBytes - slotBase alt)
    let k := min 0x1000 (z - n.toNat * 0x1000)
    .next ((s.setHost { s.host with dfu := if k < 0x1000 then 2 else 9 }).emit 2 0 (s.bytes (flashKey (slotBase alt + n.toNat * 0x1000)) k))

/-! ## KSP (R491 to R494, Table HS-2; log entry 20) -/

/-- What a KSP command comes to: the state, the STATUS and the payload of its response. -/
structure Ksp where
  s   : State
  st  : Nat
  pay : List Byte

/-- An answer without an effect. -/
def State.says (s : State) (st : Nat) : Ksp := ⟨s, st, []⟩

/-- A session that has been silent for 60 s has ended. -/
def State.kspFresh (s : State) : State :=
  match s.host.ksp with
  | some (_, t) => if t + 60000000000 ≤ s.now then s.kspEnd else s
  | none => s

/-- Whether a request reaches a server: over TCP the pattern's firmware, over USB that or the loader. -/
def State.kspHears (s : State) (tcp : Bool) : Bool :=
  s.pw.booted && s.pw.st == 0 && (if tcp then !s.pw.hold else s.host.conf && s.usbOn)

/-- A request: the other transport's session, Hold, the life cycle and the authorisation are judged before its effect. -/
def State.kspRow (s0 : State) (tcp : Bool) (d : List Byte) (cmd : Nat) (inHold needs : Bool) (run : State → Ksp) : Out :=
  let s := s0.kspFresh
  if !s.kspHears tcp || 1024 < d.length then .next s0
  else if s.host.ksp.any (fun x => x.1 != tcp) then .next (s.emit (cmd + 0x80) 5 [])
  else
    let s1 := s.setHost { s.host with ksp := some (tcp, s.now) }
    if s.pw.hold && !inHold then .next (s1.emit (cmd + 0x80) 2 [])
    else if s.sec.cycle = 4 && cmd != 0x01 then .next (s1.emit (cmd + 0x80) 4 [])
    else if s.sec.cycle = 2 && needs && !s.host.auth then .next (s1.emit (cmd + 0x80) 3 [])
    else
      let r := run s1
      .next (r.s.emit (cmd + 0x80) r.st r.pay)

/-- A new nonce, which the spec gives no value (log entry 2). -/
def State.newNonce (s : State) : State :=
  { s.setHost { s.host with nonce := (List.range 4).flatMap (fun i => leBytes 4 (Config.freeWord (s.free + i)).toNat) } with free := s.free + 4 }

/-- HELLO: identity, life cycle, stepping, PABID, PBST and a nonce. -/
def State.kspHello (s : State) : Ksp :=
  let s1 := s.newNonce
  ⟨s1, 0, bytesOf [Config.suid 0, Config.suid 1, w32 s.sec.cycle, w32 (fld idr 0 4), s.reg (patB + 0x014), s.pbst] ++ s1.host.nonce⟩

def execHello (tcp : Bool) (d : List Byte) (s : State) : Out := s.kspRow tcp d 0x01 true false (fun s => s.kspHello)

/-- AUTH (R493). -/
def State.kspAuth (s : State) (tcp : Bool) (d : List Byte) : Ksp :=
  let key := d.take 64
  let text := s.host.nonce ++ leBytes 4 (Config.suid 0).toNat ++ leBytes 4 (Config.suid 1).toNat
  if d.length ≠ 128 then s.newNonce.says 6
  else if sha256 key = Config.otpKey 3 && P256.verify (sha256 text) (d.drop 64) key then
    (let s1 := s.newNonce
     let s2 := s1.setHost { s1.host with auth := true }
     (if tcp then s2 else s2.modReg usbB (fun w => setBit w 2 true)).says 0)
  else s.newNonce.says 4

def execAuth (tcp : Bool) (d : List Byte) (s : State) : Out := s.kspRow tcp d 0x02 true false (fun s => s.kspAuth tcp d)

/-- MREAD: view, slice, offset u16, length u16. -/
def State.kspMread (s : State) (d : List Byte) : Ksp :=
  let v := (d.getD 0 0).toNat
  let h := (d.getD 1 0).toNat
  let o := leNat ((d.drop 2).take 2)
  let n := leNat ((d.drop 4).take 2)
  if d.length ≠ 6 || 4 ≤ v || 64 ≤ h || 1024 < n || 0x1000 < o + n then s.says 6
  else match s.viewRead (0x13000000 + v * 0x40000 + h * 0x1000 + o) n with
    | some (_, bs) => ⟨s, 0, bs⟩
    | none => s.says 4

def execMread (tcp : Bool) (d : List Byte) (s : State) : Out := s.kspRow tcp d 0x10 false false (fun s => s.kspMread d)

/-- The registers of LOGREAD in order: RSTCAUSE, BOWCNT, WAKEFAIL, STLOG, STCNT, PBERRA, PBERRB, XERRA, XERRI, DCAUSE,
DTRIP, DTRIPE. -/
def logRegs : List Nat :=
  [aon + 4, aon + 8, aon + 0xC, secB + 0x018, secB + 0x01C, patB + 8, patB + 0xC, xbar + 0x20, xbar + 0x24
  , damper + 8, damper + 0x44, damper + 0x48]

/-- LOGREAD: the registers as reads from GS give them. -/
def State.kspLog (s : State) : List Nat → Ksp
  | [] => ⟨s, 0, []⟩
  | a :: r =>
    match s.blockRead bootWho ((a - 0x40000000) / 0x10000) (a % 0x10000) with
    | .ok (v, s1) =>
      let k := s1.kspLog r
      { k with pay := leBytes 4 v.toNat ++ k.pay }
    | .error _ => s.says 4

def execLogread (tcp : Bool) (d : List Byte) (s : State) : Out := s.kspRow tcp d 0x20 true false (fun s => s.kspLog logRegs)

/-- FREAD: offset u32, length u16. -/
def State.kspFread (s : State) (d : List Byte) : Ksp :=
  let o := leNat (d.take 4)
  let n := leNat ((d.drop 4).take 2)
  if d.length ≠ 6 || 1024 < n || Config.flashBytes < o + n then s.says 6 else ⟨s, 0, s.bytes (flashKey o) n⟩

def execFread (tcp : Bool) (d : List Byte) (s : State) : Out := s.kspRow tcp d 0x30 true false (fun s => s.kspFread d)

/-- FWRITE: offset u32 of a sector, then its data. -/
def State.kspFwrite (s : State) (d : List Byte) : Ksp :=
  let o := leNat (d.take 4)
  if d.length < 4 || o % 0x1000 ≠ 0 || Config.flashBytes ≤ o then s.says 6
  else if s.protects o then s.says 4
  else (s.sector o (d.drop 4)).says 0

def execFwrite (tcp : Bool) (d : List Byte) (s : State) : Out := s.kspRow tcp d 0x31 true true (fun s => s.kspFwrite d)

/-- STAGE (R492): PSTGC.GO for the slot; the response comes when the run ends. -/
def execStage (tcp : Bool) (d : List Byte) (s0 : State) : Out :=
  let s := s0.kspFresh
  let b := (d.getD 0 0) == 1
  let free := s.kspHears tcp && d.length == 1 && decide ((d.getD 0 0).toNat ≤ 1) && !s.host.ksp.any (fun x => x.1 != tcp)
    && !s.pw.hold && s.sec.cycle != 4 && (s.sec.cycle != 2 || s.host.auth) && s.pat.stage.isNone
  if free then
    (let s1 := s.setHost { s.host with ksp := some (tcp, s.now), kstg := true }
     .next (s1.stageGo b))
  else s0.kspRow tcp d 0x32 false true (fun s => s.says (if s.pat.stage.isSome then 5 else 6))

/-- REBLOCK: E as 6 bytes; refused with the WHY of Table PA-8. -/
def State.kspReblock (s : State) (d : List Byte) : Ksp :=
  if d.length ≠ 6 then s.says 6
  else
    let e := leNat d
    let s1 := (s.setReg (patB + 0x030) (w32 e)).setReg (patB + 0x034) (w32 (e / 2 ^ 32))
    match s1.armWhy with
    | some why => ⟨s1.rbArm false, 4, [BitVec.ofNat 8 why]⟩
    | none => (s1.rbArm false).says 0

def execKspReblock (tcp : Bool) (d : List Byte) (s : State) : Out := s.kspRow tcp d 0x33 false true (fun s => s.kspReblock d)

/-- The flash offset of the calibration record, from the header of the active slot (15 R420). -/
def State.calp (s : State) : Nat := (s.patW s.pat.aslot 0x10).toNat

/-- CALREAD. -/
def execCalread (tcp : Bool) (d : List Byte) (s : State) : Out :=
  s.kspRow tcp d 0x40 true false (fun s => ⟨s, 0, s.bytes (flashKey s.calp) 512⟩)

/-- The record of CALWRITE as it is written: WRITER = 1, COUNT one above that of the record it replaces, and the CRC
(R494, 15 R421). -/
def State.calRecord (s : State) (d : List Byte) : List Byte :=
  let n := (fld (s.calW s.calp 8) 8 24 + 1) % 2 ^ 24
  let body := d.take 8 ++ leBytes 4 (1 + n * 2 ^ 8) ++ (d.drop 12).take 0x1F0
  body ++ leBytes 4 (crc32 body).toNat

/-- CALWRITE (R494): checked, then the record's sector is erased and programmed and the registers are loaded. -/
def State.kspCalwrite (s : State) (d : List Byte) : Ksp :=
  let c := s.calp
  if d.length ≠ 512 || leNat (d.take 4) ≠ 0x4C435842 || leNat ((d.drop 4).take 4) ≠ 0x02000001 then s.says 6
  else if s.protects c then s.says 4
  else
    let s1 := (s.fill (flashKey (c - c % 0x1000)) 0xFF 0x1000).flashProg c (s.calRecord d)
    (s1.calLoad c).says 0

def execCalwrite (tcp : Bool) (d : List Byte) (s : State) : Out := s.kspRow tcp d 0x41 true true (fun s => s.kspCalwrite d)

/-- LCADV: BLANK to FACTORY, in Hold only (16 R451). -/
def State.kspLcadv (s : State) : Ksp :=
  if !s.pw.hold then s.says 7 else if s.sec.cycle = 0 then (s.advance 1).says 0 else s.says 4

def execLcadv (tcp : Bool) (d : List Byte) (s : State) : Out := s.kspRow tcp d 0x50 true false (fun s => s.kspLcadv)

/-- QCLEAR: DQCLR0 to DQCLR2 from the payload (11 R315). -/
def State.kspQclear (s : State) (d : List Byte) : Ksp :=
  if d.length ≠ 12 then s.says 6
  else ((List.range 3).foldl (fun (s : State) k => s.dqclr k (w32 (leNat ((d.drop (4 * k)).take 4)))) s).says 0

def execQclear (tcp : Bool) (d : List Byte) (s : State) : Out := s.kspRow tcp d 0x60 false true (fun s => s.kspQclear d)

/-! ## Time (log entry 1) -/

/-- A staging buffer's outbound post that waits for a tag tries again (13 R372). -/
def State.stagingRetry (s : State) : State :=
  match s.hub.outs.find? (fun o => o.tag.isNone && (match o.sender with
    | .staging _ => true
    | _ => false)) with
  | some o => s.sendOut o
  | none => s

/-- 8 ns of the core clock pass: the clocks advance, UARTs send, a sleep request asks on, waiting posts try for tags, frames that
waited for the line go out. -/
def State.passTime (s : State) : State :=
  let s1 := { s with now := s.now + 8 }
  let s2 := if s1.pw.st < 2 && s1.pw.rst.isNone then s1.tdPass else s1
  allPorts.foldl (fun (s : State) p => s.flowOn p) (((s2.uartPass 0).uartPass 1).sleepAsk 13).stagingRetry

end Sys2Proof.Machine
end

