-- ==== Sys2Proof/Machine/Dispatch.lean ====
section
/-!
DEFINITION. Each command to its meaning, one arm per constructor.
-/
namespace Sys2Proof.Machine
open Sys2Proof

/-- The effect of a command on everything but the queue. -/
def exec (i : Instr) (s : State) : Host.Outcome State Fault Refusal :=
  match i with
  | .instructionWord h => Sys2Proof.Machine.execInstructionWord h s
  | .operationResult h => Sys2Proof.Machine.execOperationResult h s
  | .add h u t => Sys2Proof.Machine.execAdd h u t s
  | .sub h u t => Sys2Proof.Machine.execSub h u t s
  | .rsub h u t => Sys2Proof.Machine.execRsub h u t s
  | .addcy h u t => Sys2Proof.Machine.execAddcy h u t s
  | .subbw h u t => Sys2Proof.Machine.execSubbw h u t s
  | .adds h u t => Sys2Proof.Machine.execAdds h u t s
  | .subs h u t => Sys2Proof.Machine.execSubs h u t s
  | .addus h u t => Sys2Proof.Machine.execAddus h u t s
  | .subus h u t => Sys2Proof.Machine.execSubus h u t s
  | .and h u t => Sys2Proof.Machine.execAnd h u t s
  | .or h u t => Sys2Proof.Machine.execOr h u t s
  | .xor h u t => Sys2Proof.Machine.execXor h u t s
  | .andn h u t => Sys2Proof.Machine.execAndn h u t s
  | .not h u t => Sys2Proof.Machine.execNot h u t s
  | .neg h u t => Sys2Proof.Machine.execNeg h u t s
  | .negs h u t => Sys2Proof.Machine.execNegs h u t s
  | .abs h u t => Sys2Proof.Machine.execAbs h u t s
  | .abss h u t => Sys2Proof.Machine.execAbss h u t s
  | .min h u t => Sys2Proof.Machine.execMin h u t s
  | .max h u t => Sys2Proof.Machine.execMax h u t s
  | .minu h u t => Sys2Proof.Machine.execMinu h u t s
  | .maxu h u t => Sys2Proof.Machine.execMaxu h u t s
  | .pass h u t => Sys2Proof.Machine.execPass h u t s
  | .addB4 h u t => Sys2Proof.Machine.execAddB4 h u t s
  | .subB4 h u t => Sys2Proof.Machine.execSubB4 h u t s
  | .addusB4 h u t => Sys2Proof.Machine.execAddusB4 h u t s
  | .subusB4 h u t => Sys2Proof.Machine.execSubusB4 h u t s
  | .addH2 h u t => Sys2Proof.Machine.execAddH2 h u t s
  | .subH2 h u t => Sys2Proof.Machine.execSubH2 h u t s
  | .addsH2 h u t => Sys2Proof.Machine.execAddsH2 h u t s
  | .subsH2 h u t => Sys2Proof.Machine.execSubsH2 h u t s
  | .shl h t => Sys2Proof.Machine.execShl h t s
  | .shr h t => Sys2Proof.Machine.execShr h t s
  | .sar h t => Sys2Proof.Machine.execSar h t s
  | .rol h t => Sys2Proof.Machine.execRol h t s
  | .ror h t => Sys2Proof.Machine.execRor h t s
  | .shls h t => Sys2Proof.Machine.execShls h t s
  | .sarr h t => Sys2Proof.Machine.execSarr h t s
  | .shlH2 h t => Sys2Proof.Machine.execShlH2 h t s
  | .shrH2 h t => Sys2Proof.Machine.execShrH2 h t s
  | .sarH2 h t => Sys2Proof.Machine.execSarH2 h t s
  | .sextB h t => Sys2Proof.Machine.execSextB h t s
  | .sextH h t => Sys2Proof.Machine.execSextH h t s
  | .zextB h t => Sys2Proof.Machine.execZextB h t s
  | .zextH h t => Sys2Proof.Machine.execZextH h t s
  | .clz h t => Sys2Proof.Machine.execClz h t s
  | .pack h t => Sys2Proof.Machine.execPack h t s
  | .mul h t => Sys2Proof.Machine.execMul h t s
  | .mulu h t => Sys2Proof.Machine.execMulu h t s
  | .mulsu h t => Sys2Proof.Machine.execMulsu h t s
  | .mulH2 h t => Sys2Proof.Machine.execMulH2 h t s
  | .mulqH2 h t => Sys2Proof.Machine.execMulqH2 h t s
  | .mulq h t => Sys2Proof.Machine.execMulq h t s
  | .mac h t => Sys2Proof.Machine.execMac h t s
  | .msu h t => Sys2Proof.Machine.execMsu h t s
  | .macH2 h t => Sys2Proof.Machine.execMacH2 h t s
  | .msuH2 h t => Sys2Proof.Machine.execMsuH2 h t s
  | .macu h t => Sys2Proof.Machine.execMacu h t s
  | .accr h t => Sys2Proof.Machine.execAccr h t s
  | .accrH h t => Sys2Proof.Machine.execAccrH h t s
  | .div h t => Sys2Proof.Machine.execDiv h t s
  | .divu h t => Sys2Proof.Machine.execDivu h t s
  | .rem h t => Sys2Proof.Machine.execRem h t s
  | .remu h t => Sys2Proof.Machine.execRemu h t s
  | .eq h t => Sys2Proof.Machine.execEq h t s
  | .ne h t => Sys2Proof.Machine.execNe h t s
  | .lt h t => Sys2Proof.Machine.execLt h t s
  | .ltu h t => Sys2Proof.Machine.execLtu h t s
  | .le h t => Sys2Proof.Machine.execLe h t s
  | .leu h t => Sys2Proof.Machine.execLeu h t s
  | .gt h t => Sys2Proof.Machine.execGt h t s
  | .gtu h t => Sys2Proof.Machine.execGtu h t s
  | .ge h t => Sys2Proof.Machine.execGe h t s
  | .geu h t => Sys2Proof.Machine.execGeu h t s
  | .tst h t => Sys2Proof.Machine.execTst h t s
  | .bit h t => Sys2Proof.Machine.execBit h t s
  | .ld h u t => Sys2Proof.Machine.execLd h u t s
  | .ldh h u t => Sys2Proof.Machine.execLdh h u t s
  | .ldhu h u t => Sys2Proof.Machine.execLdhu h u t s
  | .ldb h u t => Sys2Proof.Machine.execLdb h u t s
  | .ldbu h u t => Sys2Proof.Machine.execLdbu h u t s
  | .st h u t => Sys2Proof.Machine.execSt h u t s
  | .sth h u t => Sys2Proof.Machine.execSth h u t s
  | .stb h u t => Sys2Proof.Machine.execStb h u t s
  | .nearStoreDrain h => Sys2Proof.Machine.execNearStoreDrain h s
  | .ldFar h t => Sys2Proof.Machine.execLdFar h t s
  | .ldhuFar h t => Sys2Proof.Machine.execLdhuFar h t s
  | .stFar h t => Sys2Proof.Machine.execStFar h t s
  | .sthFar h t => Sys2Proof.Machine.execSthFar h t s
  | .addFar h t => Sys2Proof.Machine.execAddFar h t s
  | .addsH2Far h t => Sys2Proof.Machine.execAddsH2Far h t s
  | .swapFar h t => Sys2Proof.Machine.execSwapFar h t s
  | .farLoadCompletion h => Sys2Proof.Machine.execFarLoadCompletion h s
  | .farStoreAck h => Sys2Proof.Machine.execFarStoreAck h s
  | .farAccessFailure h => Sys2Proof.Machine.execFarAccessFailure h s
  | .jmp h t => Sys2Proof.Machine.execJmp h t s
  | .jmpr h t => Sys2Proof.Machine.execJmpr h t s
  | .call h t => Sys2Proof.Machine.execCall h t s
  | .callr h t => Sys2Proof.Machine.execCallr h t s
  | .jtab h t => Sys2Proof.Machine.execJtab h t s
  | .loop h t => Sys2Proof.Machine.execLoop h t s
  | .brk h t => Sys2Proof.Machine.execBrk h t s
  | .rep h n => Sys2Proof.Machine.execRep h n s
  | .repeatedWord h => Sys2Proof.Machine.execRepeatedWord h s
  | .post h t => Sys2Proof.Machine.execPost h t s
  | .fetch h t => Sys2Proof.Machine.execFetch h t s
  | .peek h t => Sys2Proof.Machine.execPeek h t s
  | .pstat h t => Sys2Proof.Machine.execPstat h t s
  | .ring h t => Sys2Proof.Machine.execRing h t s
  | .dbclr h t => Sys2Proof.Machine.execDbclr h t s
  | .mbxAnswer h => Sys2Proof.Machine.execMbxAnswer h s
  | .tget h t => Sys2Proof.Machine.execTget h t s
  | .tarm h t => Sys2Proof.Machine.execTarm h t s
  | .tcan h t => Sys2Proof.Machine.execTcan h t s
  | .twait h t => Sys2Proof.Machine.execTwait h t s
  | .twaitRelease h => Sys2Proof.Machine.execTwaitRelease h s
  | .alarmFire h => Sys2Proof.Machine.execAlarmFire h s
  | .csrr h t => Sys2Proof.Machine.execCsrr h t s
  | .csrw h t o => Sys2Proof.Machine.execCsrw h t o s
  | .csrs h t o => Sys2Proof.Machine.execCsrs h t o s
  | .csrc h t o => Sys2Proof.Machine.execCsrc h t o s
  | .csrx h t o => Sys2Proof.Machine.execCsrx h t o s
  | .trap h n => Sys2Proof.Machine.execTrap h n s
  | .gate h g => Sys2Proof.Machine.execGate h g s
  | .ret h => Sys2Proof.Machine.execRet h s
  | .gret h => Sys2Proof.Machine.execGret h s
  | .halt h => Sys2Proof.Machine.execHalt h s
  | .debugResume h => Sys2Proof.Machine.execDebugResume h s
  | .sleep h w => Sys2Proof.Machine.execSleep h w s
  | .fence h scope => Sys2Proof.Machine.execFence h scope s
  | .fenceI h => Sys2Proof.Machine.execFenceI h s
  | .commit h => Sys2Proof.Machine.execCommit h s
  | .epwait h => Sys2Proof.Machine.execEpwait h s
  | .sync h scope => Sys2Proof.Machine.execSync h scope s
  | .barrierComplete ch scope k => Sys2Proof.Machine.execBarrierComplete ch scope k s
  | .entry h => Sys2Proof.Machine.execEntry h s
  | .interrupt h => Sys2Proof.Machine.execInterrupt h s
  | .hearthFault h => Sys2Proof.Machine.execHearthFault h s
  | .icset w h v => Sys2Proof.Machine.execIcset w h v s
  | .dgfeed w d v => Sys2Proof.Machine.execDgfeed w d v s
  | .draughtWarning d => Sys2Proof.Machine.execDraughtWarning d s
  | .draughtExpiry d => Sys2Proof.Machine.execDraughtExpiry d s
  | .draughtReset d => Sys2Proof.Machine.execDraughtReset d s
  | .fk0 h t => Sys2Proof.Machine.execFk0 h t s
  | .fk1 h t => Sys2Proof.Machine.execFk1 h t s
  | .fk2 h t => Sys2Proof.Machine.execFk2 h t s
  | .fk3 h t => Sys2Proof.Machine.execFk3 h t s
  | .fk4 h t => Sys2Proof.Machine.execFk4 h t s
  | .fk5 h t => Sys2Proof.Machine.execFk5 h t s
  | .step h t => Sys2Proof.Machine.execStep h t s
  | .red h t => Sys2Proof.Machine.execRed h t s
  | .lrun h t => Sys2Proof.Machine.execLrun h t s
  | .fullingCompletion h => Sys2Proof.Machine.execFullingCompletion h s
  | .haloLanding h => Sys2Proof.Machine.execHaloLanding h s
  | .reductionComplete d k => Sys2Proof.Machine.execReductionComplete d k s
  | .frtoExpiry h => Sys2Proof.Machine.execFrtoExpiry h s
  | .tickEdge => Sys2Proof.Machine.execTickEdge s
  | .firstTickEdge => Sys2Proof.Machine.execFirstTickEdge s
  | .tickEdgeArrival k => Sys2Proof.Machine.execTickEdgeArrival k s
  | .commitReport h => Sys2Proof.Machine.execCommitReport h s
  | .sliceCopy h => Sys2Proof.Machine.execSliceCopy h s
  | .epdl => Sys2Proof.Machine.execEpdl s
  | .fdl => Sys2Proof.Machine.execFdl s
  | .sdl => Sys2Proof.Machine.execSdl s
  | .sealApply => Sys2Proof.Machine.execSealApply s
  | .mlost => Sys2Proof.Machine.execMlost s
  | .timeExchange p => Sys2Proof.Machine.execTimeExchange p s
  | .fdemWrite w n v => Sys2Proof.Machine.execFdemWrite w n v s
  | .ecmtVector => Sys2Proof.Machine.execEcmtVector s
  | .damperTick => Sys2Proof.Machine.execDamperTick s
  | .firstKey w v => Sys2Proof.Machine.execFirstKey w v s
  | .secondKey w v => Sys2Proof.Machine.execSecondKey w v s
  | .keyTimeout => Sys2Proof.Machine.execKeyTimeout s
  | .quenchN => Sys2Proof.Machine.execQuenchN s
  | .out n => Sys2Proof.Machine.execOut n s
  | .rawCode c => Sys2Proof.Machine.execRawCode c s
  | .codeAbsence c => Sys2Proof.Machine.execCodeAbsence c s
  | .phase p => Sys2Proof.Machine.execPhase p s
  | .group g => Sys2Proof.Machine.execGroup g s
  | .groupWindowEnd g => Sys2Proof.Machine.execGroupWindowEnd g s
  | .dqset w k v => Sys2Proof.Machine.execDqset w k v s
  | .dqclr w k v => Sys2Proof.Machine.execDqclr w k v s
  | .drqtx w v => Sys2Proof.Machine.execDrqtx w v s
  | .zeroCrossing p => Sys2Proof.Machine.execZeroCrossing p s
  | .phaseLost p => Sys2Proof.Machine.execPhaseLost p s
  | .halfCycleDecision p => Sys2Proof.Machine.execHalfCycleDecision p s
  | .pwmPeriod n => Sys2Proof.Machine.execPwmPeriod n s
  | .ctHalfCycle c => Sys2Proof.Machine.execCtHalfCycle c s
  | .referenceLoss => Sys2Proof.Machine.execReferenceLoss s
  | .referenceReturn => Sys2Proof.Machine.execReferenceReturn s
  | .lfLoss => Sys2Proof.Machine.execLfLoss s
  | .detect p => Sys2Proof.Machine.execDetect p s
  | .align p => Sys2Proof.Machine.execAlign p s
  | .lockLost p => Sys2Proof.Machine.execLockLost p s
  | .trainingRetry p => Sys2Proof.Machine.execTrainingRetry p s
  | .ident p c => Sys2Proof.Machine.execIdent p c s
  | .ack p c => Sys2Proof.Machine.execAck p c s
  | .nak p c => Sys2Proof.Machine.execNak p c s
  | .cfm p c => Sys2Proof.Machine.execCfm p c s
  | .cred p c => Sys2Proof.Machine.execCred p c s
  | .tsq p c => Sys2Proof.Machine.execTsq p c s
  | .tsr1 p c => Sys2Proof.Machine.execTsr1 p c s
  | .tsr2 p c => Sys2Proof.Machine.execTsr2 p c s
  | .down p c => Sys2Proof.Machine.execDown p c s
  | .resendTimer p => Sys2Proof.Machine.execResendTimer p s
  | .linkfail p => Sys2Proof.Machine.execLinkfail p s
  | .custodyTimeout p => Sys2Proof.Machine.execCustodyTimeout p s
  | .ackResend p => Sys2Proof.Machine.execAckResend p s
  | .responseResend n => Sys2Proof.Machine.execResponseResend n s
  | .rd p f => Sys2Proof.Machine.execRd p f s
  | .rdr p f => Sys2Proof.Machine.execRdr p f s
  | .wr p f => Sys2Proof.Machine.execWr p f s
  | .wra p f => Sys2Proof.Machine.execWra p f s
  | .atReq p f => Sys2Proof.Machine.execAtReq p f s
  | .atr p f => Sys2Proof.Machine.execAtr p f s
  | .mb p f => Sys2Proof.Machine.execMb p f s
  | .mbr p f => Sys2Proof.Machine.execMbr p f s
  | .halo p f => Sys2Proof.Machine.execHalo p f s
  | .haloa p f => Sys2Proof.Machine.execHaloa p f s
  | .stok p f => Sys2Proof.Machine.execStok p f s
  | .etok p f => Sys2Proof.Machine.execEtok p f s
  | .eack p f => Sys2Proof.Machine.execEack p f s
  | .esup p f => Sys2Proof.Machine.execEsup p f s
  | .eseal p f => Sys2Proof.Machine.execEseal p f s
  | .rq p f => Sys2Proof.Machine.execRq p f s
  | .rrst p f => Sys2Proof.Machine.execRrst p f s
  | .fail p f => Sys2Proof.Machine.execFail p f s
  | .timeout tag => Sys2Proof.Machine.execTimeout tag s
  | .linkReconfig => Sys2Proof.Machine.execLinkReconfig s
  | .hubPost h => Sys2Proof.Machine.execHubPost h s
  | .withdrawal m => Sys2Proof.Machine.execWithdrawal m s
  | .mbxtoExpiry n => Sys2Proof.Machine.execMbxtoExpiry n s
  | .mbcfgWrite w m v => Sys2Proof.Machine.execMbcfgWrite w m v s
  | .mbsgo w v => Sys2Proof.Machine.execMbsgo w v s
  | .mbring w v => Sys2Proof.Machine.execMbring w v s
  | .hlockRead w n => Sys2Proof.Machine.execHlockRead w n s
  | .hlockWrite w n v => Sys2Proof.Machine.execHlockWrite w n v s
  | .mblkfree w k v => Sys2Proof.Machine.execMblkfree w k v s
  | .grant t => Sys2Proof.Machine.execGrant t s
  | .promotion n => Sys2Proof.Machine.execPromotion n s
  | .burst t => Sys2Proof.Machine.execBurst t s
  | .bitSetAlias w a v => Sys2Proof.Machine.execBitSetAlias w a v s
  | .bitClearAlias w a v => Sys2Proof.Machine.execBitClearAlias w a v s
  | .atomic w op a v => Sys2Proof.Machine.execAtomic w op a v s
  | .masterResetAbort m => Sys2Proof.Machine.execMasterResetAbort m s
  | .islandPowerLoss t => Sys2Proof.Machine.execIslandPowerLoss t s
  | .sliceChange t => Sys2Proof.Machine.execSliceChange t s
  | .remap w v => Sys2Proof.Machine.execRemap w v s
  | .swipe w v => Sys2Proof.Machine.execSwipe w v s
  | .wipeComplete => Sys2Proof.Machine.execWipeComplete s
  | .go w e => Sys2Proof.Machine.execGo w e s
  | .abort w e => Sys2Proof.Machine.execAbort w e s
  | .descriptorFetch e => Sys2Proof.Machine.execDescriptorFetch e s
  | .epwStart e => Sys2Proof.Machine.execEpwStart e s
  | .chunkCompletion e => Sys2Proof.Machine.execChunkCompletion e s
  | .descriptorDone e => Sys2Proof.Machine.execDescriptorDone e s
  | .bellowsError e => Sys2Proof.Machine.execBellowsError e s
  | .conversion c code lost => Sys2Proof.Machine.execConversion c code lost s
  | .cjConversion c code loop => Sys2Proof.Machine.execCjConversion c code loop s
  | .ctSample c v => Sys2Proof.Machine.execCtSample c v s
  | .sampleLatch => Sys2Proof.Machine.execSampleLatch s
  | .achWrite w c v => Sys2Proof.Machine.execAchWrite w c v s
  | .rateChange c => Sys2Proof.Machine.execRateChange c s
  | .startUp => Sys2Proof.Machine.execStartUp s
  | .staging w slot => Sys2Proof.Machine.execStaging w slot s
  | .stagingAbort w => Sys2Proof.Machine.execStagingAbort w s
  | .stagingDone => Sys2Proof.Machine.execStagingDone s
  | .arm w fab => Sys2Proof.Machine.execArm w fab s
  | .disarm w => Sys2Proof.Machine.execDisarm w s
  | .reblockCommit w => Sys2Proof.Machine.execReblockCommit w s
  | .qspiCommand w v => Sys2Proof.Machine.execQspiCommand w v s
  | .qspiWindowRead w a n => Sys2Proof.Machine.execQspiWindowRead w a n s
  | .slcadv w v => Sys2Proof.Machine.execSlcadv w v s
  | .sdbggo w v => Sys2Proof.Machine.execSdbggo w v s
  | .unlockResult => Sys2Proof.Machine.execUnlockResult s
  | .tamper n => Sys2Proof.Machine.execTamper n s
  | .opChange w k op => Sys2Proof.Machine.execOpChange w k op s
  | .regulatorReady => Sys2Proof.Machine.execRegulatorReady s
  | .vfail => Sys2Proof.Machine.execVfail s
  | .cap k => Sys2Proof.Machine.execCap k s
  | .rel k => Sys2Proof.Machine.execRel k s
  | .backBias => Sys2Proof.Machine.execBackBias s
  | .sleepRequest w v => Sys2Proof.Machine.execSleepRequest w v s
  | .wake n => Sys2Proof.Machine.execWake n s
  | .wakefail fll => Sys2Proof.Machine.execWakefail fll s
  | .aonAlarm => Sys2Proof.Machine.execAonAlarm s
  | .por => Sys2Proof.Machine.execPor s
  | .bor vin => Sys2Proof.Machine.execBor vin s
  | .bow => Sys2Proof.Machine.execBow s
  | .bowRecovery => Sys2Proof.Machine.execBowRecovery s
  | .vddAfeLow => Sys2Proof.Machine.execVddAfeLow s
  | .vddLnkLow => Sys2Proof.Machine.execVddLnkLow s
  | .pinReset => Sys2Proof.Machine.execPinReset s
  | .swr w v => Sys2Proof.Machine.execSwr w v s
  | .hrst w v => Sys2Proof.Machine.execHrst w v s
  | .deviceReset => Sys2Proof.Machine.execDeviceReset s
  | .ethReceive f => Sys2Proof.Machine.execEthReceive f s
  | .ethtxgo w => Sys2Proof.Machine.execEthtxgo w s
  | .ptpstep w sec v => Sys2Proof.Machine.execPtpstep w sec v s
  | .ethmdio w v => Sys2Proof.Machine.execEthmdio w v s
  | .usbBusReset => Sys2Proof.Machine.execUsbBusReset s
  | .bulkOut d => Sys2Proof.Machine.execBulkOut d s
  | .dfuDownload alt n d => Sys2Proof.Machine.execDfuDownload alt n d s
  | .dfuUpload alt n => Sys2Proof.Machine.execDfuUpload alt n s
  | .hello tcp d => Sys2Proof.Machine.execHello tcp d s
  | .auth tcp d => Sys2Proof.Machine.execAuth tcp d s
  | .mread tcp d => Sys2Proof.Machine.execMread tcp d s
  | .logread tcp d => Sys2Proof.Machine.execLogread tcp d s
  | .fread tcp d => Sys2Proof.Machine.execFread tcp d s
  | .fwrite tcp d => Sys2Proof.Machine.execFwrite tcp d s
  | .stage tcp d => Sys2Proof.Machine.execStage tcp d s
  | .kspReblock tcp d => Sys2Proof.Machine.execKspReblock tcp d s
  | .calread tcp d => Sys2Proof.Machine.execCalread tcp d s
  | .calwrite tcp d => Sys2Proof.Machine.execCalwrite tcp d s
  | .lcadv tcp d => Sys2Proof.Machine.execLcadv tcp d s
  | .qclear tcp d => Sys2Proof.Machine.execQclear tcp d s
  | .sessionTimeout => Sys2Proof.Machine.execSessionTimeout s
  | .i2ccmd w v => Sys2Proof.Machine.execI2ccmd w v s
  | .i2cTimeout => Sys2Proof.Machine.execI2cTimeout s
  | .uartReceive u d => Sys2Proof.Machine.execUartReceive u d s
  | .urxd w u => Sys2Proof.Machine.execUrxd w u s
  | .utxd w u v => Sys2Proof.Machine.execUtxd w u v s
  | .gpioEvent n v => Sys2Proof.Machine.execGpioEvent n v s
  | .idcode => Sys2Proof.Machine.execIdcode s
  | .samplePreload => Sys2Proof.Machine.execSamplePreload s
  | .extest => Sys2Proof.Machine.execExtest s
  | .jtagDebug => Sys2Proof.Machine.execJtagDebug s
  | .bypass => Sys2Proof.Machine.execBypass s
  | .tapReset => Sys2Proof.Machine.execTapReset s
  | .rcRead w a => Sys2Proof.Machine.execRcRead w a s
  | .latchingRead w a => Sys2Proof.Machine.execLatchingRead w a s
  | .registerWrite w a v => Sys2Proof.Machine.execRegisterWrite w a v s
  | .commitCompletion h => Sys2Proof.Machine.execCommitCompletion h s
  | .hubFetch h => Sys2Proof.Machine.execHubFetch h s
  | .halfCycleBoundary p => Sys2Proof.Machine.execHalfCycleBoundary p s
  | .quenchNHigh => Sys2Proof.Machine.execQuenchNHigh s
  | .pinCauseGone => Sys2Proof.Machine.execPinCauseGone s
  | .bowCauseGone => Sys2Proof.Machine.execBowCauseGone s
  | .tamperInactive n => Sys2Proof.Machine.execTamperInactive n s
  | .vddAfeRecovery => Sys2Proof.Machine.execVddAfeRecovery s
  | .lfReturn => Sys2Proof.Machine.execLfReturn s
  | .qspiCommandDone err => Sys2Proof.Machine.execQspiCommandDone err s
  | .i2cCommandDone st d => Sys2Proof.Machine.execI2cCommandDone st d s
  | .mdioDone d => Sys2Proof.Machine.execMdioDone d s
  | .ethTransmitDone => Sys2Proof.Machine.execEthTransmitDone s
  | .bulkIn n => Sys2Proof.Machine.execBulkIn n s
  | .standardRequest r v => Sys2Proof.Machine.execStandardRequest r v s
  | .vbusChange v => Sys2Proof.Machine.execVbusChange v s

end Sys2Proof.Machine
end

