-- ==== Sys2Proof/Machine/Step.lean ====
section
/-!
DEFINITION. The step of the block: the command at the front of the queue takes its effect; on an empty queue 8 ns of
the core clock pass (log entry 1).
-/
namespace Sys2Proof.Machine
open Sys2Proof

/-- One step: the front command on the state with the queue's rest, or 8 ns of time. -/
def step (s : State) : Host.Outcome State Fault Refusal :=
  match s.pending with
  | [] => .next s.passTime
  | c :: r => exec c { s with pending := r }

/-- The command a word spells, put at the front of the queue; the table gives no row any bits (log entry 8). -/
def State.withFetchWord (s : State) (nbits w : Nat) : State :=
  match decodeTableWord nbits w with
  | some c => { s with pending := c :: s.pending }
  | none => s

end Sys2Proof.Machine
end

