-- ==== Sys2Proof/Safety.lean ====
section
/-!
DEFINITION. What counts as a safe state: the canonical forms of the memory, of the registers of the system blocks, of
the control registers of every hearth and of the tag generations, which every step keeps.
-/
namespace Sys2Proof.Machine
open Sys2Proof

/-- The sparse stores of the machine are in canonical form. -/
structure State.Inv (s : State) : Prop where
  mem  : Memory.wf s.mem = true
  regs : smWf regDefault s.regs = true
  cr   : ∀ h : Hid, smWf crDefault (s.hearth h).cr = true
  gens : smWf (fun _ => 0) s.lk.gens = true

end Sys2Proof.Machine
end

