-- ==== Sys2Proof/Certificates/Slice0/Obligations.lean ====
section
/-!
DEFINITION. The statements for the provers. Each obligation is one closed proposition; what it says is in its docstring, with
the rules of the spec that it states. The words they share (what a command answers, what it leaves alone) stand where they are
first used.
-/
open Sys2Proof Sys2Proof.Machine

/-! ## Vocabulary of the statements -/

/-- Hearth `h` of `s` with one more operation in flight, and nothing else changed. -/
def Sys2Proof.Machine.State.launch (s : State) (h : Hid) (f : Flight) : State :=
  s.setHearth h { s.hearth h with flights := (s.hearth h).flights ++ [f] }

/-- An operation of unit `u` and latency `l` that starts in the current issue cycle of hearth `h`. -/
def Sys2Proof.Machine.State.flight (s : State) (h : Hid) (u : FUnit) (l : Nat) (k : FlightKind) (sov dov dvz : Bool) : Flight :=
  ⟨u, (s.hearth h).ic + l, (s.hearth h).ic + l, k, sov, dov, dvz⟩

/-- The command starts on its ALU an operation of latency 1 with result `r T O` for the ALU's result socket, which sets
SOV where `v T O`; nothing else changes. -/
def Sys2Proof.Machine.AluGives (c : Hid → Fin 2 → Word → Instr) (r : Word → Word → Word) (v : Word → Word → Bool) : Prop :=
  ∀ (s : State) (h : Hid) (u : Fin 2) (t : Word),
    exec (c h u t) s = .next (s.launch h (s.flight h (if u = 0 then .alu0 else .alu1) 1
      (.one (if u = 0 then 0 else 1) (r t ((s.hearth h).opnd (if u = 0 then 0x28 else 0x29))))
      (v t ((s.hearth h).opnd (if u = 0 then 0x28 else 0x29))) false false))

/-- The same of SHF, with O from its operand socket. -/
def Sys2Proof.Machine.ShfGives (c : Hid → Word → Instr) (r : Word → Word → Word) (v : Word → Word → Bool) : Prop :=
  ∀ (s : State) (h : Hid) (t : Word),
    exec (c h t) s = .next (s.launch h (s.flight h .shf 1 (.one 2 (r t ((s.hearth h).opnd 0x2A)))
      (v t ((s.hearth h).opnd 0x2A)) false false))

/-- The same of PRED, whose result is 1 or 0. -/
def Sys2Proof.Machine.PrdGives (c : Hid → Word → Instr) (r : Word → Word → Bool) : Prop :=
  ∀ (s : State) (h : Hid) (t : Word),
    exec (c h t) s = .next (s.launch h (s.flight h .pred 1
      (.one 7 (if r t ((s.hearth h).opnd 0x2E) then 1 else 0)) false false false))

/-- The command starts on MUL, where the tracking table has an entry free, an operation of latency 3 (2 in class LC2)
with results `r T O` for MUL.r and `k T O` for MUL.h. -/
def Sys2Proof.Machine.MulGives (c : Hid → Word → Instr) (r k : Word → Word → Word) (v : Word → Word → Bool) : Prop :=
  ∀ (s : State) (h : Hid) (t : Word), (s.hearth h).ottUsed < 48 →
    exec (c h t) s = .next (s.launch h (s.flight h .mul (if (s.stack (stackOf h)).lc = 2 then 2 else 3)
      (.two 3 4 (r t ((s.hearth h).opnd 0x2B)) (k t ((s.hearth h).opnd 0x2B))) (v t ((s.hearth h).opnd 0x2B)) false false))

/-- The same of an accumulator operation, whose results are those of ACC in its final stage. -/
def Sys2Proof.Machine.AccGives (c : Hid → Word → Instr) (op : AccOp) : Prop :=
  ∀ (s : State) (h : Hid) (t : Word), (s.hearth h).ottUsed < 48 →
    exec (c h t) s = .next (s.launch h (s.flight h .mul (if (s.stack (stackOf h)).lc = 2 then 2 else 3)
      (.acc op t ((s.hearth h).opnd 0x2B)) false false false))

/-- The command starts on an idle DIV, where the tracking table has an entry free, an operation of latency 18 (14 in class
LC2) with quotient `q T O` and remainder `r T O`; with HCTL.DZF and O = 0 it sets DVZ and faults with cause 0x06. -/
def Sys2Proof.Machine.DivGives (c : Hid → Word → Instr) (q r : Word → Word → Word) (dov dvz : Word → Word → Bool) : Prop :=
  ∀ (s : State) (h : Hid) (t : Word), (s.hearth h).ottUsed < 48 →
    (∀ f ∈ (s.hearth h).flights, f.unit = .div → f.due ≤ (s.hearth h).ic) →
    (((s.hearth h).rd 0x008).getLsbD 0 = false ∨ (s.hearth h).opnd 0x2D ≠ 0 →
      exec (c h t) s = .next (s.launch h (s.flight h .div (if (s.stack (stackOf h)).lc = 2 then 14 else 18)
      (.two 5 6 (q t ((s.hearth h).opnd 0x2D)) (r t ((s.hearth h).opnd 0x2D)))
      false (dov t ((s.hearth h).opnd 0x2D)) (dvz t ((s.hearth h).opnd 0x2D)))))
    ∧ (((s.hearth h).rd 0x008).getLsbD 0 = true → (s.hearth h).opnd 0x2D = 0 →
      exec (c h t) s = .next (s.setHearth h (({ s.hearth h with dvz := true } : Hearth).precise 6 0x06 0)))

/-- No operands. -/
def Sys2Proof.Machine.never (_ _ : Word) : Bool := false

/-- A word made of four bytes, each computed from the bytes of T and O in its place. -/
def Sys2Proof.Machine.onBytes (f : Byte → Byte → Byte) (t o : Word) : Word :=
  f (t.extractLsb' 24 8) (o.extractLsb' 24 8) ++ f (t.extractLsb' 16 8) (o.extractLsb' 16 8)
    ++ f (t.extractLsb' 8 8) (o.extractLsb' 8 8) ++ f (t.extractLsb' 0 8) (o.extractLsb' 0 8)

/-- A word made of two halves, each computed from the halves of T and O in its place. -/
def Sys2Proof.Machine.onHalves (f : Half → Half → Half) (t o : Word) : Word :=
  f (t.extractLsb' 16 16) (o.extractLsb' 16 16) ++ f (t.extractLsb' 0 16) (o.extractLsb' 0 16)

/-- Whether some pair of bytes in the same place meets `p`. -/
def Sys2Proof.Machine.someByte (p : Byte → Byte → Bool) (t o : Word) : Bool :=
  p (t.extractLsb' 24 8) (o.extractLsb' 24 8) || p (t.extractLsb' 16 8) (o.extractLsb' 16 8)
    || p (t.extractLsb' 8 8) (o.extractLsb' 8 8) || p (t.extractLsb' 0 8) (o.extractLsb' 0 8)

/-- Whether some pair of halves in the same place meets `p`. -/
def Sys2Proof.Machine.someHalf (p : Half → Half → Bool) (t o : Word) : Bool :=
  p (t.extractLsb' 16 16) (o.extractLsb' 16 16) || p (t.extractLsb' 0 16) (o.extractLsb' 0 16)

/-- An exact integer clamped to a signed field of `n` bits. -/
def Sys2Proof.Machine.clampTo (n : Nat) (x : Int) : BitVec n := BitVec.ofInt n (max (-(2 ^ (n - 1))) (min (2 ^ (n - 1) - 1) x))

/-- Whether an exact integer lies outside a signed field of `n` bits. -/
def Sys2Proof.Machine.outOf (n : Nat) (x : Int) : Bool := decide (x < -(2 ^ (n - 1))) || decide (2 ^ (n - 1) - 1 < x)

/-- Whether a division is the signed overflow, -2^31 by -1. -/
def Sys2Proof.Machine.divOvf (t o : Word) : Bool := t == 0x80000000 && o == 0xFFFFFFFF

/-! ## Compute (04) -/

/-- Table OC-3, the ALU operations on whole words that set no sticky bit. -/
def Sys2Proof.Machine.AluWordOperationsGiveTheirResults : Prop :=
  AluGives .add (fun t o => t + o) never ∧ AluGives .sub (fun t o => t - o) never
  ∧ AluGives .rsub (fun t o => o - t) never
  ∧ AluGives .addcy (fun t o => if BitVec.uaddOverflow t o then 1 else 0) never
  ∧ AluGives .subbw (fun t o => if BitVec.usubOverflow t o then 1 else 0) never
  ∧ AluGives .and (fun t o => t &&& o) never ∧ AluGives .or (fun t o => t ||| o) never
  ∧ AluGives .xor (fun t o => t ^^^ o) never ∧ AluGives .andn (fun t o => t &&& ~~~o) never
  ∧ AluGives .not (fun t _ => ~~~t) never ∧ AluGives .pass (fun t _ => t) never
  ∧ AluGives .min (fun t o => if t.sle o then t else o) never
  ∧ AluGives .max (fun t o => if t.sle o then o else t) never
  ∧ AluGives .minu (fun t o => if t.ule o then t else o) never
  ∧ AluGives .maxu (fun t o => if t.ule o then o else t) never

/-- Table OC-3, the ALU operations that saturate or set SOV: the result clamps exactly where SOV is set, but for neg
and abs, which give the wrapped value. -/
def Sys2Proof.Machine.AluSaturatingOperationsClampAndSetSov : Prop :=
  AluGives .adds (fun t o => clampTo 32 (t.toInt + o.toInt)) BitVec.saddOverflow
  ∧ AluGives .subs (fun t o => clampTo 32 (t.toInt - o.toInt)) BitVec.ssubOverflow
  ∧ AluGives .addus (fun t o => if BitVec.uaddOverflow t o then 0xFFFFFFFF else t + o) BitVec.uaddOverflow
  ∧ AluGives .subus (fun t o => if BitVec.usubOverflow t o then 0 else t - o) BitVec.usubOverflow
  ∧ AluGives .neg (fun t _ => -t) (fun t _ => t == BitVec.intMin 32)
  ∧ AluGives .negs (fun t _ => if t = BitVec.intMin 32 then 0x7FFFFFFF else -t) (fun t _ => t == BitVec.intMin 32)
  ∧ AluGives .abs (fun t _ => t.abs) (fun t _ => t == BitVec.intMin 32)
  ∧ AluGives .abss (fun t _ => if t = BitVec.intMin 32 then 0x7FFFFFFF else t.abs) (fun t _ => t == BitVec.intMin 32)

/-- Table OC-3, the ALU operations on four bytes and on two halves. -/
def Sys2Proof.Machine.AluLaneOperationsActOnEachLane : Prop :=
  AluGives .addB4 (onBytes (fun a b => a + b)) never ∧ AluGives .subB4 (onBytes (fun a b => a - b)) never
  ∧ AluGives .addusB4 (onBytes (fun a b => if BitVec.uaddOverflow a b then 255 else a + b)) (someByte BitVec.uaddOverflow)
  ∧ AluGives .subusB4 (onBytes (fun a b => if BitVec.usubOverflow a b then 0 else a - b)) (someByte BitVec.usubOverflow)
  ∧ AluGives .addH2 (onHalves (fun a b => a + b)) never ∧ AluGives .subH2 (onHalves (fun a b => a - b)) never
  ∧ AluGives .addsH2 (onHalves (fun a b => clampTo 16 (a.toInt + b.toInt))) (someHalf BitVec.saddOverflow)
  ∧ AluGives .subsH2 (onHalves (fun a b => clampTo 16 (a.toInt - b.toInt))) (someHalf BitVec.ssubOverflow)

/-- R110, R114, R115, Table OC-3: the word, saturating and lane operations of ALU0 and ALU1. -/
def Obligations.AluOperationsGiveTheirResults : Prop :=
  AluWordOperationsGiveTheirResults ∧ AluSaturatingOperationsClampAndSetSov ∧ AluLaneOperationsActOnEachLane

/-- Table OC-4, the SHF operations: counts of words are O[5:0], of rotations and halves O[4:0]. -/
def Sys2Proof.Machine.ShifterOperationsGiveTheirResults : Prop :=
  ShfGives .shl (fun t o => t <<< (o.toNat % 64)) never ∧ ShfGives .shr (fun t o => t >>> (o.toNat % 64)) never
  ∧ ShfGives .sar (fun t o => t.sshiftRight (o.toNat % 64)) never
  ∧ ShfGives .rol (fun t o => t.rotateLeft (o.toNat % 32)) never
  ∧ ShfGives .ror (fun t o => t.rotateRight (o.toNat % 32)) never
  ∧ ShfGives .shls (fun t o => clampTo 32 (t.toInt * 2 ^ (o.toNat % 64))) (fun t o => outOf 32 (t.toInt * 2 ^ (o.toNat % 64)))
  ∧ ShfGives .sarr (fun t o =>
      if o.toNat % 64 = 0 then t else BitVec.ofInt 32 ((t.toInt + 2 ^ (o.toNat % 64 - 1)) / 2 ^ (o.toNat % 64))) never
  ∧ ShfGives .shlH2 (fun t o => onHalves (fun a _ => a <<< (o.toNat % 32)) t o) never
  ∧ ShfGives .shrH2 (fun t o => onHalves (fun a _ => a >>> (o.toNat % 32)) t o) never
  ∧ ShfGives .sarH2 (fun t o => onHalves (fun a _ => a.sshiftRight (o.toNat % 32)) t o) never
  ∧ ShfGives .sextB (fun t _ => (t.setWidth 8).signExtend 32) never
  ∧ ShfGives .sextH (fun t _ => (t.setWidth 16).signExtend 32) never
  ∧ ShfGives .zextB (fun t _ => (t.setWidth 8).setWidth 32) never
  ∧ ShfGives .zextH (fun t _ => (t.setWidth 16).setWidth 32) never
  ∧ ShfGives .clz (fun t _ => if t = 0 then 32 else BitVec.ofNat 32 (31 - Nat.log2 t.toNat)) never
  ∧ ShfGives .pack (fun t o => t.setWidth 16 ++ o.setWidth 16) never

/-- Table OC-5, the plain products: the 64-bit product in MUL.h and MUL.r, its halves by lanes, and the rounded Q
products, which clamp only the product of the two least values. -/
def Obligations.MultiplierProductsAreExact : Prop :=
  MulGives .mul (fun t o => (t.signExtend 64 * o.signExtend 64).setWidth 32)
      (fun t o => (t.signExtend 64 * o.signExtend 64).extractLsb' 32 32) never
  ∧ MulGives .mulu (fun t o => (t.setWidth 64 * o.setWidth 64).setWidth 32)
      (fun t o => (t.setWidth 64 * o.setWidth 64).extractLsb' 32 32) never
  ∧ MulGives .mulsu (fun t o => (t.signExtend 64 * o.setWidth 64).setWidth 32)
      (fun t o => (t.signExtend 64 * o.setWidth 64).extractLsb' 32 32) never
  ∧ MulGives .mulH2 (onHalves (fun a b => a * b))
      (onHalves (fun a b => (a.signExtend 32 * b.signExtend 32).extractLsb' 16 16)) never
  ∧ MulGives .mulqH2 (onHalves (fun a b => clampTo 16 ((a.toInt * b.toInt + 2 ^ 14) / 2 ^ 15))) (fun _ _ => 0)
      (someHalf (fun a b => a == BitVec.intMin 16 && b == BitVec.intMin 16))
  ∧ MulGives .mulq (fun t o => clampTo 32 ((t.toInt * o.toInt + 2 ^ 30) / 2 ^ 31)) (fun _ _ => 0)
      (fun t o => t == BitVec.intMin 32 && o == BitVec.intMin 32)

/-- The exact sum an accumulating operation makes of ACC, T and O. -/
def Sys2Proof.Machine.exactSum (op : AccOp) (a : Int) (t o : Word) : Int :=
  match op with
  | .mac => a + (t.setWidth 16).toInt * (o.setWidth 16).toInt
  | .msu => a - (t.setWidth 16).toInt * (o.setWidth 16).toInt
  | .macH2 => a + ((t.setWidth 16).toInt * (o.setWidth 16).toInt + (t.extractLsb' 16 16).toInt * (o.extractLsb' 16 16).toInt)
  | .msuH2 => a - ((t.setWidth 16).toInt * (o.setWidth 16).toInt + (t.extractLsb' 16 16).toInt * (o.extractLsb' 16 16).toInt)
  | .macu => a + ((t.setWidth 16).toNat * (o.setWidth 16).toNat : Nat)
  | .accr => a
  | .accrH => a

/-- R120, R122 to R124: the accumulator operations start on MUL; in the final stage of an accumulating one ACC becomes
the sum clamped to 48 bits, MUL.r its low word and MUL.h its bits 47 to 32, sign-extended, and SOV is set where it
clamped; accr and accr.h give ACC shifted right by T[5:0] with rounding, clamped to 32 and 16 bits, and leave it. -/
def Obligations.AccumulatorOperationsUpdateAccInTheirFinalStage : Prop :=
  AccGives .mac .mac ∧ AccGives .msu .msu ∧ AccGives .macH2 .macH2 ∧ AccGives .msuH2 .msuH2 ∧ AccGives .macu .macu
  ∧ AccGives .accr .accr ∧ AccGives .accrH .accrH
  ∧ (∀ (x : Hearth) (f : Flight) (op : AccOp) (t o : Word), f.kind = .acc op t o → op ≠ .accr → op ≠ .accrH →
      (x.land f).acc = clampTo 48 (exactSum op x.acc.toInt t o)
      ∧ (x.land f).rs[3] = (x.land f).acc.setWidth 32
      ∧ (x.land f).rs[4] = ((x.land f).acc.extractLsb' 32 16).signExtend 32
      ∧ (x.land f).sov = (x.sov || outOf 48 (exactSum op x.acc.toInt t o)))
  ∧ (∀ (x : Hearth) (f : Flight) (op : AccOp) (t o : Word) (w : Nat), f.kind = .acc op t o →
      (op = .accr ∧ w = 32 ∨ op = .accrH ∧ w = 16) →
      (x.land f).acc = x.acc ∧ (x.land f).rs[4] = (x.acc.extractLsb' 32 16).signExtend 32
      ∧ (x.land f).rs[3] = (clampTo w (if t.toNat % 64 = 0 then x.acc.toInt
          else (x.acc.toInt + 2 ^ (t.toNat % 64 - 1)) / 2 ^ (t.toNat % 64))).signExtend 32
      ∧ (x.land f).sov = (x.sov || outOf w (if t.toNat % 64 = 0 then x.acc.toInt
          else (x.acc.toInt + 2 ^ (t.toNat % 64 - 1)) / 2 ^ (t.toNat % 64))))

/-- R126, R127: the divisions, their two corners with DVZ and DOV, and the divide-by-zero fault of HCTL.DZF. -/
def Obligations.DivisionsAndTheirCorners : Prop :=
  DivGives .div (fun t o => if o = 0 then 0xFFFFFFFF else if divOvf t o then 0x80000000 else t.sdiv o)
      (fun t o => if o = 0 then t else if divOvf t o then 0 else t.srem o) divOvf (fun _ o => o == 0)
  ∧ DivGives .rem (fun t o => if o = 0 then 0xFFFFFFFF else if divOvf t o then 0x80000000
        else BitVec.ofInt 32 (Int.fdiv t.toInt o.toInt))
      (fun t o => if o = 0 then t else if divOvf t o then 0 else t.smod o) divOvf (fun _ o => o == 0)
  ∧ DivGives .divu (fun t o => if o = 0 then 0xFFFFFFFF else t / o) (fun t o => if o = 0 then t else t % o) never (fun _ o => o == 0)
  ∧ DivGives .remu (fun t o => if o = 0 then 0xFFFFFFFF else t / o) (fun t o => if o = 0 then t else t % o) never (fun _ o => o == 0)

/-- Table OC-7, the comparisons. -/
def Sys2Proof.Machine.ComparisonsGiveOneOrZero : Prop :=
  PrdGives .eq (fun t o => t == o) ∧ PrdGives .ne (fun t o => t != o)
  ∧ PrdGives .lt (fun t o => t.slt o) ∧ PrdGives .ltu (fun t o => t.ult o)
  ∧ PrdGives .le (fun t o => t.sle o) ∧ PrdGives .leu (fun t o => t.ule o)
  ∧ PrdGives .gt (fun t o => o.slt t) ∧ PrdGives .gtu (fun t o => o.ult t)
  ∧ PrdGives .ge (fun t o => o.sle t) ∧ PrdGives .geu (fun t o => o.ule t)
  ∧ PrdGives .tst (fun t o => t &&& o != 0) ∧ PrdGives .bit (fun t o => t.getLsbD (o.toNat % 32))

/-- The operations of SHF and of PRED. -/
def Obligations.ShifterAndComparisonsGiveTheirResults : Prop := ShifterOperationsGiveTheirResults ∧ ComparisonsGiveOneOrZero

/-- Whether an operation in flight delivers to a result socket. -/
def Sys2Proof.Machine.Flight.Delivers (f : Flight) (k : Fin 15) : Prop :=
  match f.kind with
  | .one j _ => j = k
  | .two i j _ _ => i = k ∨ j = k
  | .acc _ _ _ => k = 3 ∨ k = 4
  | .idle => False

/-- R52, R107, R110: OPERATION_RESULT ends the issue cycle of a hearth whose clock runs; while it stands nothing happens. The
counts advance by one; every operation due leaves; a socket holds the value of the last due one that delivers it, and keeps its
value where none does; the sticky bits of due operations are set, and without a buffered store none is cleared; the general
registers, predicates and operand sockets stay; memory is as the drain of the oldest buffered store leaves it. -/
def Obligations.OperationResultsBecomeVisibleWhenDue : Prop :=
  ∀ (s : State) (h : Hid) (c : Nat), c = (s.hearth h).ic + 1 →
    (s.stackRuns (stackOf h) = false → exec (.operationResult h) s = .next s)
    ∧ (s.stackRuns (stackOf h) = true → ∃ v, exec (.operationResult h) s = .next v ∧ v.mem = (s.drain h).mem
      ∧ (v.hearth h).ic = c ∧ (v.hearth h).clk = (s.hearth h).clk + 1
      ∧ (v.hearth h).flights = (s.hearth h).flights.filter (fun f => decide (c < f.due))
      ∧ (v.hearth h).g = (s.hearth h).g ∧ (v.hearth h).p = (s.hearth h).p ∧ (v.hearth h).op = (s.hearth h).op
      ∧ (∀ (a b : List Flight) (f : Flight) (k j : Fin 15) (w x : Word), (s.hearth h).flights = a ++ f :: b → f.due ≤ c →
          (∀ e ∈ b, e.due ≤ c → ¬ e.Delivers k) → (f.kind = .one k w ∨ (f.kind = .two k j w x ∧ j ≠ k) ∨ f.kind = .two j k x w) →
          (v.hearth h).rs[k] = w)
      ∧ (∀ k : Fin 15, (∀ f ∈ (s.hearth h).flights, f.due ≤ c → ¬ f.Delivers k) → (v.hearth h).rs[k] = (s.hearth h).rs[k])
      ∧ (∀ f ∈ (s.hearth h).flights, f.due ≤ c → f.kind ≠ .idle → (∀ o t u, f.kind ≠ .acc o t u) →
          (f.sov = true → (v.hearth h).sov = true) ∧ (f.dov = true → (v.hearth h).dov = true) ∧ (f.dvz = true → (v.hearth h).dvz = true))
      ∧ ((s.hearth h).sb = [] → ((s.hearth h).sov = true → (v.hearth h).sov = true)
          ∧ ((s.hearth h).dov = true → (v.hearth h).dov = true) ∧ ((s.hearth h).dvz = true → (v.hearth h).dvz = true)))

/-! ## Vocabulary of near and far accesses, and of words -/

/-- The number that `n` bytes from key `k` spell, little-endian, as a word. -/
def Sys2Proof.Machine.State.spells (s : State) (k n : Nat) : Word :=
  if n = 4 then s.byte (k + 3) ++ s.byte (k + 2) ++ s.byte (k + 1) ++ s.byte k
  else if n = 2 then (s.byte (k + 1) ++ s.byte k).setWidth 32
  else (s.byte k).setWidth 32

/-- A word extended from its low `n` bytes, with sign where `sg`. -/
def Sys2Proof.Machine.extendFrom (n : Nat) (sg : Bool) (w : Word) : Word :=
  if n = 4 then w
  else if n = 2 then (if sg then (w.setWidth 16).signExtend 32 else (w.setWidth 16).setWidth 32)
  else (if sg then (w.setWidth 8).signExtend 32 else (w.setWidth 8).setWidth 32)

/-- A near access of `n` bytes at `t` is aligned and in the local space below the ports, and the brim grants it. -/
def Sys2Proof.Machine.State.mayNear (s : State) (h : Hid) (t : Word) (n : Nat) (wr : Bool) : Prop :=
  t.toNat % n = 0 ∧ t.toNat < 0xF000 ∧ (s.hearth h).brimOk false t.toNat (t.toNat + n - 1) (!wr) wr (s.hearth h).mode = true

/-- The command loads `n` bytes: with no buffered store over them, an entry of the tracking table free and LSU1.r not
pending, the result socket of its LSU gets the bytes after 2 cycles from LDM and 4 from the windows. Nothing else changes. -/
def Sys2Proof.Machine.LoadGives (c : Hid → Fin 2 → Word → Instr) (n : Nat) (sg : Bool) : Prop :=
  ∀ (s : State) (h : Hid) (u : Fin 2) (t : Word), (s.hearth h).ottUsed < 48 → (u = 1 → (s.hearth h).lsu1Pend = false) →
    s.mayNear h t n false → ¬ (0xE000 ≤ t.toNat ∧ t.toNat < 0xE010) →
    (∀ e ∈ (s.hearth h).sb, ∀ i < n, e.holds (s.localKey h t.toNat + i) = false) →
    exec (c h u t) s = .next (s.launch h (s.flight h (if u = 0 then .lsu0 else .lsu1) (if t.toNat < 0x8000 then 2 else 4)
      (.one (if u = 0 then 8 else 9) (extendFrom n sg (s.spells (s.localKey h t.toNat) n))) false false false))

/-- The command buffers a store of `n` bytes outside the halo and private windows and the header of an uncommitted
slice, where the buffer has room: the entry names the aligned word, its cell, O in the byte lanes of T, their mask and the mode.
Nothing else changes. Without room it first stalls for the cycles after which there is (R165). -/
def Sys2Proof.Machine.StoreGives (c : Hid → Fin 2 → Word → Instr) (n : Nat) : Prop :=
  (∀ (s : State) (h : Hid) (u : Fin 2) (t : Word), 8 ≤ (s.hearth h).sb.length - 1 + (s.hearth h).sbNew.length → (s.hearth h).sbNew.length < 8 →
    exec (c h u t) s = exec (c h u t) (s.stallN h ((s.hearth h).sb.length - 1 + (s.hearth h).sbNew.length - 7)))
  ∧ ∀ (s : State) (h : Hid) (u : Fin 2) (t : Word), s.mayNear h t n true → (s.hearth h).sb.length - 1 + (s.hearth h).sbNew.length < 8 →
    (t.toNat < 0xC000 ∨ (0xE010 ≤ t.toNat ∧ ((s.hearth h).rd 0x050).getLsbD 25 = false)) →
    exec (c h u t) s = .next (s.setHearth h { s.hearth h with sbNew := (s.hearth h).sbNew ++
      [⟨t.toNat - t.toNat % 4, s.localKey h (t.toNat - t.toNat % 4),
        (s.hearth h).opnd (if u = 0 then 0x30 else 0x31) <<< (8 * (t.toNat % 4)),
        BitVec.ofNat 4 ((2 ^ n - 1) * 2 ^ (t.toNat % 4)), (s.hearth h).mode⟩] })

/-- The command raises the precise fault `cause` on the word, which has no other effect. -/
def Sys2Proof.Machine.FaultsWith (i : Instr) (s : State) (h : Hid) (cause : Byte) : Prop :=
  exec i s = .next (s.setHearth h ((s.hearth h).precise (levelOf cause) cause 0))

/-- The near operation faults on an address above the local space, and on a misaligned one. -/
def Sys2Proof.Machine.NearFaults (c : Hid → Fin 2 → Word → Instr) (n : Nat) : Prop :=
  ∀ (s : State) (h : Hid) (u : Fin 2) (t : Word), (s.hearth h).ottUsed < 48 → (u = 1 → (s.hearth h).lsu1Pend = false) →
    (s.hearth h).sb = [] → (s.hearth h).sbNew.length < 8 →
    (0x10000 ≤ t.toNat → FaultsWith (c h u t) s h 0x04) ∧ (t.toNat < 0x10000 → t.toNat % n ≠ 0 → FaultsWith (c h u t) s h 0x05)

/-- The command issues a far access to this device: the tracking table holds it, the crossbar has its request. -/
def Sys2Proof.Machine.FarGives (c : Hid → Word → Instr) (k : FarKind) (n : Nat) (op : Word → XOp) (dest : Hearth → FarDest) : Prop :=
  ∀ (s : State) (h : Hid) (t : Word), (s.hearth h).farHeld k = false → t.toNat % n = 0 →
    (k = .add ∨ k = .addsH2 ∨ k = .swap → 0x20000000 ≤ t.toNat ∧ t.toNat ≤ 0x213FFFFF) →
    (s.hearth h).brimOk true t.toNat (t.toNat + n - 1) (k ≠ .st ∧ k ≠ .sth) (k ≠ .ld ∧ k ≠ .ldhu) (s.hearth h).mode = true →
    (s.hearth h).farNode = 0x3FFF ∨ (s.hearth h).farNode = s.nodeId →
    ∀ tg, targetOf s.remap t.toNat = some tg →
    exec (c h t) s = .next
      { s.setHearth h { s.hearth h with far := (s.hearth h).far ++
          [⟨s.nextId + 1, k, (s.hearth h).farNode, t, (s.hearth h).opnd 0x31, dest (s.hearth h), (s.hearth h).mode, none, .waiting⟩] } with
        nextId := s.nextId + 2
        xb := { s.xb with reqs := s.xb.reqs ++ [⟨s.nextId + 2, portOf h (s.hearth h).mode, tg, t.toNat,
          op ((s.hearth h).opnd 0x31), s.now, false, s.remap, .far h (s.nextId + 1), none⟩] } }

/-- The command issues a far access to another device: without a free tag the hearth stalls and waits for one; with the tag `g` and, on
a ring, an UP port the tracking table holds the access, waiting, with that tag; with no UP port the access has failed with cause 0x0A
and the tag is free again. -/
def Sys2Proof.Machine.FarLeaves (c : Hid → Word → Instr) (k : FarKind) (n : Nat) : Prop :=
  ∀ (s : State) (h : Hid) (t : Word), (s.hearth h).farHeld k = false → t.toNat % n = 0 →
    (k = .add ∨ k = .addsH2 ∨ k = .swap → 0x20000000 ≤ t.toNat ∧ t.toNat ≤ 0x213FFFFF) →
    (s.hearth h).farNode ≠ 0x3FFF → (s.hearth h).farNode ≠ s.nodeId → (∀ f ∈ (s.hearth h).far, f.id ≤ s.nextId) →
    (s.freeTag = none → exec (c h t) s = .next ((s.waitTag (.far h 0)).stallCycle h false))
    ∧ (∀ g, s.freeTag = some g → s.lk.wait = [] → ∃ v x, exec (c h t) s = .next v ∧ (v.hearth h).far = (s.hearth h).far ++ [x]
        ∧ x.kind = k ∧ x.node = (s.hearth h).farNode ∧ x.addr = t ∧ x.tag = some g
        ∧ ((s.portUp 1 = true ∨ s.portUp 3 = true) ∧ s.topo = 1 →
            x.status = .waiting ∧ v.lk.tags = s.lk.tags ++ [(g, .far h x.id, s.now)])
        ∧ ((∀ p : Fin 4, s.portUp p = false) → x.status = .failed 0x0A ∧ v.lk.tags = s.lk.tags.filter (fun u => u.1 ≠ g)))

/-! ## Near and far accesses (05, 06) -/

/-- Table OM-1, the loads. -/
def Sys2Proof.Machine.NearLoadsReadTheirBytes : Prop :=
  LoadGives .ld 4 false ∧ LoadGives .ldh 2 true ∧ LoadGives .ldhu 2 false ∧ LoadGives .ldb 1 true ∧ LoadGives .ldbu 1 false

/-- Table OM-1, the stores: an entry of the near store buffer, which a store without room waits for. -/
def Sys2Proof.Machine.NearStoresEnterTheBuffer : Prop :=
  StoreGives .st 4 ∧ StoreGives .sth 2 ∧ StoreGives .stb 1

/-- R133: the order of the address checks of near operations. -/
def Sys2Proof.Machine.NearAccessesFaultOnBadAddresses : Prop :=
  NearFaults .ld 4 ∧ NearFaults .ldh 2 ∧ NearFaults .ldhu 2 ∧ NearFaults .ldb 1 ∧ NearFaults .ldbu 1
  ∧ NearFaults .st 4 ∧ NearFaults .sth 2 ∧ NearFaults .stb 1

/-- The near loads and stores: what they read, what they buffer, when they fault. -/
def Obligations.NearAccessesReadBufferOrFault : Prop :=
  NearLoadsReadTheirBytes ∧ NearStoresEnterTheBuffer ∧ NearAccessesFaultOnBadAddresses

/-- R162, R152, R377: a cycle without an issue of a hearth whose clock runs takes the oldest buffered store to its target. One to memory
writes, byte by byte under its mask, and no other byte (in the felt of its hearth, where no other write of the cycle meets it).
One to a port word clears doorbells, in the P world only those below bit 48. One to a control register is judged in the mode that
the store carries: a 1 to a line of ICPEND clears it for GS, for the P world only where the line is routed to P. Without a buffered
store, and while the clock stands, nothing changes. -/
def Sys2Proof.Machine.NearStoreDrainWritesTheOldestStore : Prop :=
  (∀ (s : State) (h : Hid) (e : SbEntry) (r : List SbEntry), (s.hearth h).sb = e :: r → (s.hearth h).sbNew = [] →
    s.Inv → s.stackRuns (stackOf h) = true → (inFelt e.key = true → feltHearth e.key = h ∧ feltOff e.key % 4 = 0) → s.portNow h = [] →
    ∃ v, exec (.nearStoreDrain h) s = .next v ∧ (v.hearth h).sb = r ∧ (∀ g, g ≠ h → v.hearth g = s.hearth g) ∧ v.regs = s.regs
      ∧ (e.addr < 0xF000 → ∀ k, v.byte k =
          if e.key ≤ k ∧ k < e.key + 4 ∧ e.mask.getLsbD (k - e.key) = true then e.data.extractLsb' (8 * (k - e.key)) 8 else s.byte k)
      ∧ (0xF000 ≤ e.addr → ∀ k, v.byte k = s.byte k)
      ∧ (e.addr = 0xF000 → (v.hearth h).doorbell = (s.hearth h).doorbell &&& ~~~(e.data.setWidth 64))
      ∧ (e.addr = 0xF004 → (v.hearth h).doorbell = (s.hearth h).doorbell &&&
          ~~~((e.data.setWidth 64 <<< 32) &&& (if e.mode = .gs ∨ e.mode = .gu then 0xFFFFFFFFFFFFFFFF else 0x0000FFFFFFFFFFFF)))
      ∧ (e.addr = 0xF880 → (v.hearth h).rd 0x080 = e.data)
      ∧ (e.addr = 0xF900 → e.mode = .gs → (v.hearth h).icpend = (s.hearth h).icpend &&& ~~~e.data)
      ∧ (e.addr = 0xF900 → e.mode = .pu ∨ e.mode = .ps →
          (v.hearth h).icpend = (s.hearth h).icpend &&& ~~~(e.data &&& ~~~((s.hearth h).rd 0x108 ||| 0xE0000000))))
  ∧ (∀ (s : State) (h : Hid), s.stackRuns (stackOf h) = false ∨ ((s.hearth h).sb = [] ∧ (s.hearth h).sbNew = []) →
    exec (.nearStoreDrain h) s = .next s)

/-- R163: a load sees the store of the word before it, in a hearth whose clock runs. After a store of a word to LDM, the end of its
cycle and a load of the same word, the result in flight is the stored value, and memory is still as before. -/
def Sys2Proof.Machine.LoadAfterStoreForwardsTheStoredBytes : Prop :=
  ∀ (s : State) (h : Hid) (u w : Fin 2) (t : Word), t.toNat % 4 = 0 → t.toNat < 0x8000 → s.stackRuns (stackOf h) = true → (s.hearth h).sb = [] →
    (s.hearth h).sbNew = [] → (s.hearth h).flights = [] → (s.hearth h).ottUsed < 48 → (s.hearth h).lsu1Pend = false →
    (s.hearth h).brimOk false t.toNat (t.toNat + 3) false true (s.hearth h).mode = true →
    (s.hearth h).brimOk false t.toNat (t.toNat + 3) true false (s.hearth h).mode = true →
    ∃ a b c, exec (.st h u t) s = .next a ∧ exec (.operationResult h) a = .next b ∧ exec (.ld h w t) b = .next c
      ∧ (∀ k, c.byte k = s.byte k)
      ∧ (c.hearth h).flights = [⟨if w = 0 then .lsu0 else .lsu1, (s.hearth h).ic + 3, (s.hearth h).ic + 3,
          .one (if w = 0 then 8 else 9) ((s.hearth h).opnd (if u = 0 then 0x30 else 0x31)), false, false, false⟩]

/-- The near store buffer drains in order and forwards to loads. -/
def Obligations.NearStoresDrainAndForward : Prop := NearStoreDrainWritesTheOldestStore ∧ LoadAfterStoreForwardsTheStoredBytes

/-- Table OM-3, R137 to R143, R170, R172: far accesses to this device and to others. One that its hearth has to hold stalls. -/
def Sys2Proof.Machine.FarAccessesEnterTheTrackingTable : Prop :=
  (∀ c ∈ [(Instr.ldFar, FarKind.ld, 4), (.ldhuFar, .ldhu, 2), (.stFar, .st, 4), (.sthFar, .sth, 2), (.addFar, .add, 4), (.addsH2Far, .addsH2, 4),
      (.swapFar, .swap, 4)], FarLeaves c.1 c.2.1 c.2.2
    ∧ ∀ (s : State) (h : Hid) (t : Word), (s.hearth h).farHeld c.2.1 = true → exec (c.1 h t) s = .next (s.stallCycle h false))
  ∧ FarGives .ldFar .ld 4 (fun _ => .read 4) (fun x => x.destOf (fin 32 ((x.opnd 0x31).toNat % 32)))
  ∧ FarGives .ldhuFar .ldhu 2 (fun _ => .read 2) (fun x => x.destOf (fin 32 ((x.opnd 0x31).toNat % 32)))
  ∧ FarGives .stFar .st 4 (fun v => .write [v.extractLsb' 0 8, v.extractLsb' 8 8, v.extractLsb' 16 8, v.extractLsb' 24 8]) (fun _ => .nowhere)
  ∧ FarGives .sthFar .sth 2 (fun v => .write [v.extractLsb' 0 8, v.extractLsb' 8 8]) (fun _ => .nowhere)
  ∧ FarGives .addFar .add 4 (fun v => .atomic .add v) (fun _ => .lsu1)
  ∧ FarGives .addsH2Far .addsH2 4 (fun v => .atomic .addsH2 v) (fun _ => .lsu1)
  ∧ FarGives .swapFar .swap 4 (fun v => .atomic .swap v) (fun _ => .lsu1)

/-- The access `f` stands in the tracking table of `x`, and none of those `p` tells of stands before it. -/
def Sys2Proof.Machine.Hearth.FirstFar (x : Hearth) (a : List FarOp) (f : FarOp) (b : List FarOp) (p : FarOp → Prop) : Prop :=
  x.far = a ++ f :: b ∧ p f ∧ ∀ q ∈ a, ¬ p q

/-- An answered access of a kind. -/
def Sys2Proof.Machine.FarOp.Answered (st : Bool) (f : FarOp) : Prop := farIsStore f.kind = st ∧ ∃ v, f.status = .answered v

/-- R141, R143, R167: the end of a far access. The oldest answered load or atomic delivers its data to its register, stack pointer or
LSU1.r, and the oldest answered store just leaves. A failed access leaves too, its destination gets 0, and FAEA, FAEN and FAP record
it, or MORE counts it while FAP is set. -/
def Sys2Proof.Machine.FarAccessesEnd : Prop :=
  (∀ (s : State) (h : Hid) (f : FarOp) (a b : List FarOp) (v : Word), (s.hearth h).FirstFar a f b (FarOp.Answered false) → f.status = .answered v →
    ∃ u, exec (.farLoadCompletion h) s = .next u ∧ u = s.setHearth h (u.hearth h) ∧ (u.hearth h).far = a ++ b
      ∧ (∀ q, f.dest = .reg q → (u.hearth h).g = (s.hearth h).g.set q v ∧ (u.hearth h).sp = (s.hearth h).sp ∧ (u.hearth h).rs = (s.hearth h).rs)
      ∧ (∀ m, f.dest = .sp m → (u.hearth h).sp = (s.hearth h).sp.set (modeNo m) v ∧ (u.hearth h).g = (s.hearth h).g ∧ (u.hearth h).rs = (s.hearth h).rs)
      ∧ (f.dest = .lsu1 → (u.hearth h).rs = (s.hearth h).rs.set 9 v ∧ (u.hearth h).g = (s.hearth h).g ∧ (u.hearth h).sp = (s.hearth h).sp))
  ∧ (∀ (s : State) (h : Hid) (f : FarOp) (a b : List FarOp), (s.hearth h).FirstFar a f b (FarOp.Answered true) →
    exec (.farStoreAck h) s = .next (s.setHearth h { s.hearth h with far := a ++ b }))
  ∧ (∀ (s : State) (h : Hid) (f : FarOp) (a b : List FarOp) (c : Byte), s.Inv →
    (s.hearth h).FirstFar a f b (fun f => ∃ c, f.status = .failed c) → f.status = .failed c →
    ∃ u, exec (.farAccessFailure h) s = .next u ∧ u = s.setHearth h (u.hearth h) ∧ (u.hearth h).far = a ++ b ∧ (u.hearth h).fap = true
      ∧ (∀ q, f.dest = .reg q → (u.hearth h).g = (s.hearth h).g.set q 0)
      ∧ (∀ m, f.dest = .sp m → (u.hearth h).sp = (s.hearth h).sp.set (modeNo m) 0)
      ∧ (f.dest = .lsu1 → (u.hearth h).rs = (s.hearth h).rs.set 9 0)
      ∧ ((s.hearth h).fap = false → (u.hearth h).fapCause = c ∧ (u.hearth h).rd 0x058 = f.addr
          ∧ (u.hearth h).rd 0x05C = f.node.setWidth 32 ||| (if farIsStore f.kind then 0x01000000 else 0))
      ∧ ((s.hearth h).fap = true → (u.hearth h).fapCause = (s.hearth h).fapCause ∧ (u.hearth h).rd 0x058 = (s.hearth h).rd 0x058
          ∧ fld ((u.hearth h).rd 0x05C) 16 4 = min 15 (fld ((s.hearth h).rd 0x05C) 16 4 + 1)
          ∧ fld ((u.hearth h).rd 0x05C) 0 14 = fld ((s.hearth h).rd 0x05C) 0 14))
  ∧ (∀ (s : State) (h : Hid), (∀ f ∈ (s.hearth h).far, f.status = .waiting) →
    exec (.farLoadCompletion h) s = .next s ∧ exec (.farStoreAck h) s = .next s ∧ exec (.farAccessFailure h) s = .next s)

/-- Far accesses: how they are issued and how they end. -/
def Obligations.FarAccessesAreTrackedAndEnd : Prop := FarAccessesEnterTheTrackingTable ∧ FarAccessesEnd

/-! ## Flow of control (03, 05) -/

/-- Nothing turns the flow at the word at the PC: no transfer waits, no word is repeated, no active body is near its end. -/
def Sys2Proof.Machine.Hearth.Straight (x : Hearth) : Prop :=
  x.pbrV = false ∧ fld x.repc 16 16 = 0 ∧ x.pc.toNat < 0x7FFE
    ∧ (fld x.lpa 0 16 ≠ 0 → x.pc.toNat + 2 < fld x.lpe 0 15) ∧ (fld x.lpa 16 16 ≠ 0 → x.pc.toNat + 2 < fld x.lpe 16 15)

/-- The word of hearth `h` takes its issue cycle and `n` more, and the PC moves to `next`; general registers,
predicates and operand sockets stay, and without buffered stores memory and all else but the hearth stays. -/
def Sys2Proof.Machine.State.Issued (s v : State) (h : Hid) (next n : Nat) : Prop :=
  (v.hearth h).pc.toNat = next ∧ (v.hearth h).ic = (s.hearth h).ic + 1 ∧ (v.hearth h).clk = (s.hearth h).clk + 1 + n
    ∧ (v.hearth h).g = (s.hearth h).g ∧ (v.hearth h).p = (s.hearth h).p ∧ (v.hearth h).op = (s.hearth h).op
    ∧ ((s.hearth h).sb = [] → (s.hearth h).sbNew = [] → v = s.setHearth h (v.hearth h) ∧ (v.hearth h).sp = (s.hearth h).sp)

/-- A transfer's word: the PC goes on to the first of two delay slots, and the target waits in PBR. -/
def Sys2Proof.Machine.JumpGives (c : Hid → Word → Instr) (tgt : Hearth → Word → BitVec 15) (call : Bool) : Prop :=
  ∀ (s : State) (h : Hid) (t : Word), (s.hearth h).Straight →
    ∃ v, exec (c h t) s = .next v ∧ s.Issued v h ((s.hearth h).pc.toNat + 1) 0
      ∧ (v.hearth h).pbrV = true ∧ (v.hearth h).pbrRem = 2 ∧ (v.hearth h).pbrTgt = tgt (s.hearth h) t
      ∧ (v.hearth h).lpa = (s.hearth h).lpa
      ∧ (call = true → (v.hearth h).rs[10] = ((s.hearth h).pc + 3).setWidth 32)

/-- Table OM-4, R87, R145: the transfers; a call leaves the address after its delay slots in CTL.ra. -/
def Obligations.TransfersWaitForTwoDelaySlots : Prop :=
  JumpGives .jmp (fun _ t => t.setWidth 15) false ∧ JumpGives .call (fun _ t => t.setWidth 15) true
  ∧ JumpGives .jmpr (fun x t => x.pc + t.setWidth 15) false
  ∧ JumpGives .callr (fun x t => x.pc + t.setWidth 15) true
  ∧ JumpGives .jtab (fun x t => (t + x.opnd 0x2F).setWidth 15) false

/-- R91, R92, R99, R100, Table OM-4: loop sets up level 0 over the words after it, level 1 inside an active level 0, or with count 0 skips
the body with 3 extra cycles; rep makes the next word repeat, or with count 0 skips it with one; brk asks for its entry
where HCTL enables it. -/
def Obligations.LoopRepAndBrkActOnTheWordsAfterThem : Prop :=
  (∀ (s : State) (h : Hid) (t : Word) (n e : Nat), (s.hearth h).Straight → fld (s.hearth h).lpa 0 16 = 0 → fld (s.hearth h).lpa 16 16 = 0 →
    n = (if t.toNat % 2 ^ 16 ≠ 0 then t.toNat % 2 ^ 16 else (s.hearth h).lpc.toNat % 2 ^ 16) →
    e = ((s.hearth h).opnd 0x2F).toNat % 2 ^ 15 → (s.hearth h).pc.toNat + 1 ≤ e → e < 0x7FFF →
    ∃ v, exec (.loop h t) s = .next v
      ∧ (n ≠ 0 → s.Issued v h ((s.hearth h).pc.toNat + 1) 0 ∧ fld (v.hearth h).lps 0 15 = (s.hearth h).pc.toNat + 1
          ∧ fld (v.hearth h).lpe 0 15 = e ∧ fld (v.hearth h).lpa 0 16 = n ∧ fld (v.hearth h).lpa 16 16 = 0)
      ∧ (n = 0 → s.Issued v h (e + 1) 3 ∧ (v.hearth h).lpa = (s.hearth h).lpa))
  ∧ (∀ (s : State) (h : Hid) (t : Word) (n e : Nat), (s.hearth h).Straight → fld (s.hearth h).lpa 0 16 ≠ 0 → fld (s.hearth h).lpa 16 16 = 0 →
    n = (if t.toNat % 2 ^ 16 ≠ 0 then t.toNat % 2 ^ 16 else (s.hearth h).lpc.toNat % 2 ^ 16) → n ≠ 0 →
    e = ((s.hearth h).opnd 0x2F).toNat % 2 ^ 15 → (s.hearth h).pc.toNat + 1 ≤ e → e ≤ fld (s.hearth h).lpe 0 15 →
    ∃ v, exec (.loop h t) s = .next v ∧ s.Issued v h ((s.hearth h).pc.toNat + 1) 0 ∧ fld (v.hearth h).lps 16 15 = (s.hearth h).pc.toNat + 1
      ∧ fld (v.hearth h).lpe 16 15 = e ∧ fld (v.hearth h).lpa 16 16 = n ∧ fld (v.hearth h).lpa 0 16 = fld (s.hearth h).lpa 0 16
      ∧ fld (v.hearth h).lps 0 15 = fld (s.hearth h).lps 0 15 ∧ fld (v.hearth h).lpe 0 15 = fld (s.hearth h).lpe 0 15)
  ∧ (∀ (s : State) (h : Hid) (k : BitVec 16) (n : Nat), (s.hearth h).Straight →
    n = (if k.toNat ≠ 0 then k.toNat else (s.hearth h).repc.toNat % 2 ^ 16) →
    ∃ v, exec (.rep h k) s = .next v
      ∧ (n ≠ 0 → s.Issued v h ((s.hearth h).pc.toNat + 1) 0 ∧ fld (v.hearth h).repc 16 16 = n)
      ∧ (n = 0 → s.Issued v h ((s.hearth h).pc.toNat + 2) 1 ∧ fld (v.hearth h).repc 16 16 = 0))
  ∧ (∀ (s : State) (h : Hid) (t : Word), (s.hearth h).Straight → (s.hearth h).entry = none → (s.hearth h).sb = [] → (s.hearth h).sbNew = [] →
    ∃ v, exec (.brk h t) s = .next v ∧ s.Issued v h ((s.hearth h).pc.toNat + 1) 0
      ∧ (v.hearth h).entry = (if ((s.hearth h).rd 0x008).getLsbD 2 = true then
          some ⟨.fault 6, 0x0B, t.setWidth 8, (s.hearth h).pc + 1, false, 0, false⟩ else none))

/-! ## Timer and control registers (05) -/

/-- The command starts on its unit an operation of latency 2 with result `v`; the hearth changes in nothing else but `f`. -/
def Sys2Proof.Machine.TimedGives (i : Instr) (s : State) (h : Hid) (un : FUnit) (k : FlightKind) (f : Hearth → Hearth) : Prop :=
  exec i s = .next (s.setHearth h { f (s.hearth h) with
    flights := (s.hearth h).flights ++ [⟨un, (s.hearth h).ic + 2, (s.hearth h).ic + 2, k, false, false, false⟩] })

/-- Table OM-7, R149, R150: what the timer of a hearth whose clock runs answers; an alarm is armed, fires when the count reaches it (at once if it
has), and is cancelled; twait holds until the count or the epoch moves on. -/
def Obligations.TimerOperationsFollowTheNanosecondCount : Prop :=
  ∀ (s : State) (h : Hid) (t : Word), s.Inv → s.stackRuns (stackOf h) = true →
    ((s.hearth h).ottUsed < 48 →
      TimedGives (.tget h t) s h .tmr (.one 13 (BitVec.ofNat 32 (if t.toNat % 4 = 0 then s.nsCount h
          else if t.toNat % 4 = 1 then s.epochOf h else if t.toNat % 4 = 2 then s.td / 1000 else (s.hearth h).clk))) id
      ∧ TimedGives (.tcan h t) s h .tmr (.one 13 (if (s.hearth h).armed then 1 else 0)) (fun x => { x with armed := false })
      ∧ (∃ v, exec (.tarm h t) s = .next v ∧ v = s.setHearth h (v.hearth h)
          ∧ (s.nsCount h < t.toNat → (v.hearth h).armed = true ∧ (v.hearth h).rd 0x080 = t ∧ (v.hearth h).icpend = (s.hearth h).icpend)
          ∧ (t.toNat ≤ s.nsCount h → (v.hearth h).armed = false ∧ (v.hearth h).rd 0x084 = 2 ∧ (v.hearth h).icpend.getLsbD 4 = true))
      ∧ (t.toNat ≤ s.nsCount h → TimedGives (.twait h t) s h .tmr (.one 13 (BitVec.ofNat 32 (s.nsCount h))) id)
      ∧ (s.nsCount h < t.toNat →
          exec (.twait h t) s = .next (s.setHearth h { s.hearth h with wait := .twait t (s.epochOf h) })))
    ∧ (∀ e, (s.hearth h).wait = .twait t e → (t.toNat ≤ s.nsCount h ∨ e ≠ s.epochOf h) →
        TimedGives (.twaitRelease h) s h .tmr (.one 13 (BitVec.ofNat 32 (s.nsCount h))) (fun x => { x with wait := .none }))
    ∧ ((s.hearth h).armed = true → ((s.hearth h).rd 0x080).toNat ≤ s.nsCount h →
        ∃ v, exec (.alarmFire h) s = .next v ∧ v = s.setHearth h (v.hearth h) ∧ (v.hearth h).armed = false
          ∧ (v.hearth h).rd 0x084 = 2 ∧ (v.hearth h).icpend = (s.hearth h).icpend ||| 0x10)

/-- The command raises the precise fault 0x08 on the word and records the address of the right that failed in BRFA (R187). -/
def Sys2Proof.Machine.RightFails (i : Instr) (s : State) (h : Hid) (a : Word) : Prop :=
  ∃ v, exec i s = .next v ∧ v = s.setHearth h (v.hearth h) ∧ (v.hearth h).rd 0x2C0 = a
    ∧ (v.hearth h).entry = ((s.hearth h).precise 7 0x08 0).entry ∧ (v.hearth h).pc = (s.hearth h).pc ∧ (v.hearth h).flights = (s.hearth h).flights

/-- R151, R152, R185, R187: the SYS operations on HCTL (offset 0x008) from GS, without buffered stores to registers; a
misaligned offset faults with 0x05, and a register the mode has no right to with 0x08, its local address kept in BRFA. -/
def Obligations.ControlRegisterOperationsReadAndWrite : Prop :=
  ∀ (s : State) (h : Hid) (t o : Word), s.Inv → (s.hearth h).sb = [] → (s.hearth h).ottUsed < 48 →
    (t.toNat % 2 ^ 11 = 0x008 → (s.hearth h).mode = .gs →
      TimedGives (.csrr h t) s h .sys (.one 14 ((s.hearth h).rd 0x008)) id
      ∧ TimedGives (.csrw h t o) s h .sys .idle (fun x => x.wr 0x008 (((s.hearth h).rd 0x008 &&& ~~~7) ||| (o &&& 7)))
      ∧ TimedGives (.csrs h t o) s h .sys .idle (fun x => x.wr 0x008 ((s.hearth h).rd 0x008 ||| (o &&& 7)))
      ∧ TimedGives (.csrc h t o) s h .sys .idle (fun x => x.wr 0x008 ((s.hearth h).rd 0x008 &&& ~~~(o &&& 7)))
      ∧ TimedGives (.csrx h t o) s h .sys (.one 14 ((s.hearth h).rd 0x008))
          (fun x => x.wr 0x008 (((s.hearth h).rd 0x008 &&& ~~~7) ||| (o &&& 7))))
    ∧ (t.toNat % 4 ≠ 0 → FaultsWith (.csrr h t) s h 0x05 ∧ FaultsWith (.csrw h t o) s h 0x05 ∧ FaultsWith (.csrs h t o) s h 0x05
        ∧ FaultsWith (.csrc h t o) s h 0x05 ∧ FaultsWith (.csrx h t o) s h 0x05)
    ∧ (t.toNat % 2 ^ 11 = 0x008 → ((s.hearth h).mode = .pu ∨ (s.hearth h).mode = .gu) →
        RightFails (.csrw h t o) s h 0xF808 ∧ RightFails (.csrs h t o) s h 0xF808 ∧ RightFails (.csrc h t o) s h 0xF808
        ∧ RightFails (.csrx h t o) s h 0xF808)

/-! ## Words (03, 05) -/

/-- The hearth runs and is at a word boundary with nothing to enter, no wait, and no entry asked for. -/
def Sys2Proof.Machine.State.AtWord (s : State) (h : Hid) : Prop :=
  s.stackRuns (stackOf h) = true ∧ (s.hearth h).run = .running ∧ (s.hearth h).entry = none ∧ s.boundary h = none ∧ (s.hearth h).wait = .none

/-- The row of a system word. -/
def Sys2Proof.Machine.sysRow (h : Hid) : SysWord → Instr
  | .trap n => .trap h n
  | .gate g => .gate h g
  | .ret => .ret h
  | .gret => .gret h
  | .halt => .halt h
  | .sleep w => .sleep h w
  | .fence sc => .fence h sc
  | .fenceI => .fenceI h
  | .commit => .commit h
  | .epwait => .epwait h
  | .sync sc => .sync h sc

/-- R54, R82, R84, R153: in a cycle in which nothing holds it, the word that the hearth is supplied with is judged. A system word that
passes the decode checks does what its row does; a word that fails them, or stands where it may not, raises its fault. -/
def Obligations.SystemWordsIssueAsTheirRows : Prop :=
  ∀ (s : State) (h : Hid), s.AtWord h → (s.hearth h).rep = none →
    (∀ q, decodeFault (s.wordAt h (s.hearth h).pc.toNat) = none → (s.hearth h).sysHazard = false →
        tmpl (s.wordAt h (s.hearth h).pc.toNat) = 3 → sysWordOf (s.wordAt h (s.hearth h).pc.toNat) = some q →
        exec (.instructionWord h) s = exec (sysRow h q) s)
    ∧ (∀ c, decodeFault (s.wordAt h (s.hearth h).pc.toNat) = some c → FaultsWith (.instructionWord h) s h c)
    ∧ (decodeFault (s.wordAt h (s.hearth h).pc.toNat) = none → (s.hearth h).placeFault (s.wordAt h (s.hearth h).pc.toNat) = true →
        FaultsWith (.instructionWord h) s h 0x03)

/-- The word `w` of moves at the PC holds no trigger, names no pending register and writes no destination twice. -/
def Sys2Proof.Machine.State.PlainMoves (s : State) (h : Hid) (w : IWord) : Prop :=
  decodeFault w = none ∧ (s.hearth h).placeFault w = false ∧ tmpl w = 0 ∧ (∀ m ∈ movesOf w, m.dst < 0x40 ∨ m.dst = 0xFF)
    ∧ (∀ m ∈ movesOf w, (s.hearth h).movePend m = false) ∧ collide (fun _ => true) ((movesOf w).filter (fun m => (s.hearth h).active m)) = false
    ∧ (s.hearth h).sb = [] ∧ (s.hearth h).sbNew = [] ∧ (s.hearth h).ottUsed ≤ 48

/-- R54, R56, R63, R64, R102, R103: all moves of a word read before any writes, an inactive one writes no register, and a repeated
word leaves the PC where it is until its last repetition. The written registers hold what the moves read; every other
general register, memory, and all but the hearth stay (`setHearth`). -/
def Obligations.MovesOfAWordReadBeforeTheyWrite : Prop :=
  ∀ (s : State) (h : Hid) (w : IWord), s.AtWord h → s.PlainMoves h w →
    ((s.hearth h).rep = none ∧ fld (s.hearth h).repc 16 16 = 0 ∧ s.wordAt h (s.hearth h).pc.toNat = w ∧ (s.hearth h).Straight →
      ∃ v, exec (.instructionWord h) s = .next v ∧ v = s.setHearth h (v.hearth h) ∧ (v.hearth h).pc = (s.hearth h).pc + 1
        ∧ (∀ r : Fin 31, (∀ m ∈ movesOf w, (s.hearth h).active m = true → m.dst ≠ r.val) → (v.hearth h).g[r] = (s.hearth h).g[r])
        ∧ (∀ (r : Fin 31) m, m ∈ movesOf w → (s.hearth h).active m = true → m.dst = r.val → (v.hearth h).g[r] = (s.hearth h).moveVal m))
    ∧ ((s.hearth h).rep = some w ∧ 1 < fld (s.hearth h).repc 16 16 →
      ∃ v, exec (.repeatedWord h) s = .next v ∧ v = s.setHearth h (v.hearth h) ∧ (v.hearth h).pc = (s.hearth h).pc
        ∧ fld (v.hearth h).repc 16 16 = fld (s.hearth h).repc 16 16 - 1 ∧ (v.hearth h).rep = some w
        ∧ (∀ r : Fin 31, (∀ m ∈ movesOf w, (s.hearth h).active m = true → m.dst ≠ r.val) → (v.hearth h).g[r] = (s.hearth h).g[r])
        ∧ (∀ (r : Fin 31) m, m ∈ movesOf w → (s.hearth h).active m = true → m.dst = r.val → (v.hearth h).g[r] = (s.hearth h).moveVal m))

/-! ## Entries and returns (07) -/

/-- R208, R210, R211, Table WG-9: TRAP and a GATE that passes its checks complete as words and ask for their entries with
the next PC; a GATE that fails one records it in GCHK and raises the fault 0x12. -/
def Sys2Proof.Machine.TrapAndGateAskForTheirEntries : Prop :=
  ∀ (s : State) (h : Hid), (s.hearth h).Straight → (s.hearth h).sb = [] → (s.hearth h).sbNew = [] →
    (∀ n : BitVec 8, ∃ v, exec (.trap h n) s = .next v ∧ s.Issued v h ((s.hearth h).pc.toNat + 1) 0
      ∧ (v.hearth h).entry = some ⟨.trap, 0x10, n, (s.hearth h).pc + 1, false, 0, false⟩ ∧ (v.hearth h).mode = (s.hearth h).mode)
    ∧ (∀ g : BitVec 6, s.gateCheck h g = none → ∃ v, exec (.gate h g) s = .next v ∧ s.Issued v h ((s.hearth h).pc.toNat + 1) 0
      ∧ (v.hearth h).entry = some ⟨.gate ((s.gateWord g 0).setWidth 15) (if fld (s.gateWord g 0) 16 2 = 1 then .ps else .gs) (s.gateWord g 1),
          0x11, g.setWidth 8, (s.hearth h).pc + 1, false, 0, false⟩)
    ∧ (∀ (g : BitVec 6) (a why : Nat), s.Inv → (s.hearth h).entry = none → s.gateCheck h g = some (a, why) →
      ∃ v, exec (.gate h g) s = .next v ∧ v = s.setHearth h (v.hearth h) ∧ (v.hearth h).pc = (s.hearth h).pc
        ∧ (v.hearth h).rd 0x144 = BitVec.ofNat 32 (g.toNat + a * 2 ^ 6 + why * 2 ^ 9)
        ∧ (v.hearth h).entry = some ⟨.fault 7, 0x12, g.setWidth 8, (s.hearth h).pc, (s.hearth h).pbrV, (s.hearth h).pbrRem, false⟩)

/-- The hearth sleeps. -/
def Sys2Proof.Machine.Hearth.sleeping (x : Hearth) : Bool :=
  match x.wait with
  | .sleep _ => true
  | _ => false

/-- R197 to R202: an entry of a fault, a far access failure, a trap or a gate, with an empty store buffer, nothing in flight and
room for its frame, goes to its handler: mode, PC at the vector, ML as its target says, the saved PC and the syndrome
in the registers of the handler's world, the frame pointer two slots down, FAP, transfer and loops cleared, 30 cycles
and the 4 of a SLEEP that ends; a division fault shows DVZ set there; the 32 words of the frame stand in slot B of LDM. -/
def Sys2Proof.Machine.EntrySavesTheFrameAndGoesToTheVector : Prop :=
  ∀ (s : State) (h : Hid) (e : EntryReq) (t : Target), s.Inv → (s.hearth h).entry = some e → (∀ k, e.kind ≠ .line k) →
    (s.hearth h).target e = some t → (s.hearth h).sb = [] → (s.hearth h).sbNew = [] → (s.hearth h).flights = [] →
    (s.hearth h).noRoom t.mode = false → s.stackRuns (stackOf h) = true →
    ∃ v, exec (.entry h) s = .next v ∧ (v.hearth h).mode = t.mode ∧ (v.hearth h).pc = t.pc ∧ (v.hearth h).ml = t.ml
      ∧ (v.hearth h).fap = false ∧ (v.hearth h).pbrV = false ∧ (v.hearth h).lpa = 0 ∧ (v.hearth h).entry = none
      ∧ (v.hearth h).clk = (s.hearth h).clk + (if (s.hearth h).sleeping then 34 else 30) ∧ (v.hearth h).g = (s.hearth h).g ∧ (v.hearth h).p = (s.hearth h).p
      ∧ fld ((v.hearth h).rd (if t.mode = .gs ∨ t.mode = .gu then 0x12C else 0x01C)) 7 8 = ((s.hearth h).slot t.mode + 254) % 256
      ∧ (v.hearth h).rd (if t.mode = .gs ∨ t.mode = .gu then 0x138 else 0x014) = e.pc.setWidth 32
      ∧ fld ((v.hearth h).rd (if t.mode = .gs ∨ t.mode = .gu then 0x13C else 0x018)) 0 16 = e.cause.toNat + 256 * e.info.toNat
      ∧ (∀ i < 32, some (v.rd32 (ldmKey h ((s.hearth h).slot t.mode * 128 + 4 * i))) = (frameWords (s.hearth h) (if e.cause = 0x06 then { s.hearth h with dvz := true } else s.hearth h) e t)[i]?)
      ∧ (∀ k, ¬ (ldmKey h (((s.hearth h).slot t.mode - 1) * 128) ≤ k ∧ k < ldmKey h (((s.hearth h).slot t.mode - 1) * 128) + 256) → v.byte k = s.byte k)
      ∧ (∀ g, g ≠ h → v.hearth g = s.hearth g)

/-- R191, R192, R199, Table WG-3: where the target is a hearth fault, or the frame has no room, a hearth without buffered stores and
computes halts: FAULTED, no entry waits, and HFR holds the cause (0xFF with INENTRY for the room), the mode and the PC. -/
def Sys2Proof.Machine.HearthFaultHaltsTheHearth : Prop :=
  ∀ (s : State) (h : Hid) (e : EntryReq), s.Inv → (s.hearth h).entry = some e → (∀ k, e.kind ≠ .line k) →
    s.stackRuns (stackOf h) = true → (s.hearth h).sb = [] → (s.hearth h).sbNew = [] → (s.hearth h).computing = false → (s.hearth h).fnsLate = [] →
    ((s.hearth h).target e = none → ∃ v, exec (.hearthFault h) s = .next v ∧ (v.hearth h).run = .faulted
      ∧ (v.hearth h).entry = none ∧ (v.hearth h).pc = (s.hearth h).pc
      ∧ (v.hearth h).rd 0x148 = BitVec.ofNat 32 (e.cause.toNat + (modeNo (s.hearth h).mode).val * 2 ^ 8 + e.pc.toNat * 2 ^ 16))
    ∧ (∀ t, (s.hearth h).target e = some t → (s.hearth h).noRoom t.mode = true → ∃ v, exec (.hearthFault h) s = .next v
      ∧ (v.hearth h).run = .faulted ∧ (v.hearth h).entry = none
      ∧ (v.hearth h).rd 0x148 = BitVec.ofNat 32 (0xFF + (modeNo (s.hearth h).mode).val * 2 ^ 8 + 2 ^ 10 + e.pc.toNat * 2 ^ 16))

/-- An entry saves the frame and goes to its vector; a hearth fault halts the hearth. -/
def Obligations.EntriesSaveTheFrameOrFault : Prop := EntrySavesTheFrameAndGoesToTheVector ∧ HearthFaultHaltsTheHearth

/-- R194, R143: at a word boundary of a running hearth whose clock runs, a pending far access failure asks for its entry first; else line 31, line 30, and the winner of lines 0 to 29. -/
def Sys2Proof.Machine.InterruptAsksForTheChosenEntry : Prop :=
  ∀ (s : State) (h : Hid), (s.hearth h).run = .running → (s.hearth h).entry = none → s.stackRuns (stackOf h) = true →
    ((s.hearth h).fap = true → exec (.interrupt h) s = .next (s.setHearth h { s.hearth h with
        entry := some ⟨.far, (s.hearth h).fapCause, 0, (s.hearth h).pc, (s.hearth h).pbrV, (s.hearth h).pbrRem, false⟩ }))
    ∧ ((s.hearth h).fap = false → (s.hearth h).nmi31 = true → exec (.interrupt h) s = .next (s.setHearth h { s.hearth h with
        entry := some ⟨.line 31, 0x20, 0, (s.hearth h).pc, (s.hearth h).pbrV, (s.hearth h).pbrRem, false⟩ }))
    ∧ ((s.hearth h).fap = false → (s.hearth h).nmi31 = false → (s.hearth h).nmi30 = true → exec (.interrupt h) s = .next (s.setHearth h { s.hearth h with
        entry := some ⟨.line 30, 0x20, 0, (s.hearth h).pc, (s.hearth h).pbrV, (s.hearth h).pbrRem, false⟩ }))
    ∧ ((s.hearth h).fap = false → (s.hearth h).nmi31 = false → (s.hearth h).nmi30 = false →
        ∀ k, (s.hearth h).bestLine (s.icpend h) = some k → exec (.interrupt h) s = .next (s.setHearth h { s.hearth h with
        entry := some ⟨.line (fin 32 k), 0x20, 0, (s.hearth h).pc, (s.hearth h).pbrV, (s.hearth h).pbrRem, false⟩ }))

/-- Traps, gates and interrupts ask for their entries. -/
def Obligations.EntriesAreAskedFor : Prop := TrapAndGateAskForTheirEntries ∧ InterruptAsksForTheChosenEntry

/-- R202, R212, R213: a return that its frame and the mode allow restores PC, mode, ML, sticky bits, ACC, loops, counters and
operand sockets from the frame above the record, and frees both slots; a return that is not allowed faults with 0x07. -/
def Obligations.ReturnsRestoreTheFrame : Prop :=
  ∀ (s : State) (h : Hid) (gret : Bool) (f : Nat → Word), s.Inv → (s.hearth h).sysHazard = false → (s.hearth h).sb = [] →
    (∀ i, f i = s.rd32 (ldmKey h (((s.hearth h).slot (s.hearth h).mode + 2) * 128 + 4 * i))) →
    ((s.hearth h).slot (s.hearth h).mode + 2 ≤ 0xFF →
      returnOk (s.hearth h).mode gret ((f 0).getLsbD 15) (modeOf (fld (f 1) 4 2)) = true →
      ∃ v, exec (if gret then .gret h else .ret h) s = .next v ∧ v = s.setHearth h (v.hearth h)
        ∧ (v.hearth h).pc = (f 0).setWidth 15 ∧ (v.hearth h).mode = modeOf (fld (f 1) 4 2) ∧ (v.hearth h).ml = (f 1).setWidth 3
        ∧ (v.hearth h).sov = (f 1).getLsbD 8 ∧ (v.hearth h).dov = (f 1).getLsbD 9 ∧ (v.hearth h).dvz = (f 1).getLsbD 10
        ∧ (v.hearth h).lpa = f 6 ∧ (v.hearth h).repc = f 7 ∧ (v.hearth h).acc = (f 1).extractLsb' 16 16 ++ f 8
        ∧ (v.hearth h).g = (s.hearth h).g ∧ (v.hearth h).p = (s.hearth h).p ∧ (v.hearth h).clk = (s.hearth h).clk + 20
        ∧ fld ((v.hearth h).rd (if isG (s.hearth h).mode then 0x12C else 0x01C)) 7 8 = (s.hearth h).slot (s.hearth h).mode + 2)
    ∧ ((0xFF < (s.hearth h).slot (s.hearth h).mode + 2
        ∨ returnOk (s.hearth h).mode gret ((f 0).getLsbD 15) (modeOf (fld (f 1) 4 2)) = false) → (s.hearth h).entry = none →
      ∃ v, exec (if gret then .gret h else .ret h) s = .next v
        ∧ (v.hearth h).entry = some ⟨.fault 7, 0x07, 0, (s.hearth h).pc, (s.hearth h).pbrV, (s.hearth h).pbrRem, false⟩)

/-! ## System words (05 R153 to R155; 06 R169; 03 R85; 08 R241, R242) -/

/-- HALT, SLEEP, FENCE, FENCE.I, COMMIT, EPWAIT and SYNC: what each does to its hearth once its condition holds, and that
FENCE and COMMIT hold the hearth a cycle while far accesses are under way; DEBUG_RESUME. -/
def Obligations.SystemWordsHaltWaitAndFence : Prop :=
  ∀ (s : State) (h : Hid), s.Inv → (s.hearth h).Straight → (s.hearth h).sb = [] → (s.hearth h).sbNew = [] →
    ((s.hearth h).computing = false → ∃ v, exec (.halt h) s = .next v ∧ (v.hearth h).run = .halted ∧ (v.hearth h).pc = (s.hearth h).pc + 1 ∧ (v.hearth h).g = (s.hearth h).g)
    ∧ (∀ w, (s.hearth h).doorbell = 0 → (s.startIssue h).boundary h = none → ∃ v, exec (.sleep h w) s = .next v
        ∧ s.Issued v h ((s.hearth h).pc.toNat + 1) 0 ∧ (v.hearth h).wait = .sleep w)
    ∧ (∀ w, ((s.startIssue h).boundary h).isSome = true → (s.hearth h).wait = .none → ∃ v, exec (.sleep h w) s = .next v
        ∧ s.Issued v h ((s.hearth h).pc.toNat + 1) 0 ∧ (v.hearth h).wait = .none)
    ∧ (∀ sc, (sc = .near ∨ (s.hearth h).far = []) → ∃ v, exec (.fence h sc) s = .next v ∧ s.Issued v h ((s.hearth h).pc.toNat + 1) 0)
    ∧ (∀ sc, sc ≠ .near → (s.hearth h).far ≠ [] → ∃ v, exec (.fence h sc) s = .next v
        ∧ (v.hearth h).pc = (s.hearth h).pc ∧ (v.hearth h).stallc = (s.hearth h).stallc + 1 ∧ (v.hearth h).ic = (s.hearth h).ic)
    ∧ (∃ v, exec (.fenceI h) s = .next v ∧ (v.hearth h).pc = (s.hearth h).pc + 1 ∧ (v.hearth h).crown = none ∧ (v.hearth h).btb = []
        ∧ (v.hearth h).clk = (s.hearth h).clk + 12)
    ∧ ((s.hearth h).far = [] → ∃ v, exec (.commit h) s = .next v ∧ s.Issued v h ((s.hearth h).pc.toNat + 1) 0
        ∧ (v.hearth h).wait = .commit
        ∧ ((s.hearth h).committed = false → (v.hearth h).report = some (s.epochOf h) ∧ (v.hearth h).cmtPend = true)
        ∧ ((s.hearth h).committed = true → (v.hearth h).report = (s.hearth h).report ∧ (v.hearth h).cmtPend = (s.hearth h).cmtPend))
    ∧ ((s.hearth h).far ≠ [] → ∃ v, exec (.commit h) s = .next v
        ∧ (v.hearth h).pc = (s.hearth h).pc ∧ (v.hearth h).stallc = (s.hearth h).stallc + 1 ∧ (v.hearth h).ic = (s.hearth h).ic)
    ∧ (((s.hearth h).rd 0x04C).getLsbD 31 = false → ∃ v, exec (.epwait h) s = .next v ∧ (v.hearth h).wait = .epwait
        ∧ (v.hearth h).pc = (s.hearth h).pc ∧ (v.hearth h).waitc = (s.hearth h).waitc + 1
        ∧ (v.hearth h).rd 0x04C = BitVec.ofNat 32 ((s.epochOf h + 1) % 2 ^ 24) ||| 0x80000000)
    ∧ (∀ sc, (s.hearth h).takesPart 0 sc = true → ∃ v, exec (.sync h sc) s = .next v ∧ s.Issued v h ((s.hearth h).pc.toNat + 1) 0
        ∧ (v.hearth h).wait = .sync sc ∧ (v.hearth h).arr0 = some sc)
    ∧ ((s.hearth h).takesPart 0 .stack = false → ∃ v, exec (.sync h .stack) s = .next v ∧ s.Issued v h ((s.hearth h).pc.toNat + 1) 4
        ∧ (v.hearth h).waitc = (s.hearth h).waitc + 4)
    ∧ ((s.hearth h).run = .halted → ∃ v, exec (.debugResume h) s = .next v ∧ v = s.setHearth h (v.hearth h)
        ∧ (v.hearth h).run = .running ∧ (v.hearth h).crown = none ∧ (v.hearth h).btb = [] ∧ (v.hearth h).pc = (s.hearth h).pc)

/-! ## Mailboxes, doorbells and locks (05, 13) -/

/-- R146, R147: an MBX trigger that finds MBX.r free, the buffer empty, an entry free and, for post and fetch, O word
aligned with 32 bytes in LDM, starts: MBX.r is pending, a post has its bytes; an O that is not so faults with 0x04. -/
def Sys2Proof.Machine.MailboxTriggersStartOrFault : Prop :=
  ∀ (s : State) (h : Hid) (t : Word), (s.hearth h).mbx = none → (s.hearth h).sb = [] → (s.hearth h).ottUsed < 48 →
    (∀ (i : Instr) (k : MbxKind), (i, k) ∈ [(.peek h t, .peek), (.pstat h t, .pstat), (.ring h t, .ring), (.dbclr h t, .dbclr)] →
      exec i s = .next (s.setHearth h { s.hearth h with mbx := some ⟨k, t, (s.hearth h).opnd 0x34, (s.hearth h).mode, [], none⟩ }))
    ∧ (((s.hearth h).opnd 0x34).toNat % 4 = 0 → ((s.hearth h).opnd 0x34).toNat + 32 ≤ 0x8000 →
      exec (.fetch h t) s = .next (s.setHearth h { s.hearth h with mbx := some ⟨.fetch, t, (s.hearth h).opnd 0x34, (s.hearth h).mode, [], none⟩ })
      ∧ exec (.post h t) s = .next (s.setHearth h { s.hearth h with mbx := some ⟨.post, t, (s.hearth h).opnd 0x34, (s.hearth h).mode,
          s.bytes (ldmKey h ((s.hearth h).opnd 0x34).toNat) (fld t 8 5 + 1), none⟩ }))
    ∧ (((s.hearth h).opnd 0x34).toNat % 4 ≠ 0 ∨ 0x8000 < ((s.hearth h).opnd 0x34).toNat + 32 →
      FaultsWith (.fetch h t) s h 0x04 ∧ FaultsWith (.post h t) s h 0x04)

/-- R365 to R369: a post of the supervisor mode to another hearth's P mailbox that is enabled and has a free slot is
queued last with its bytes, recorded as queued, and answered OK; a fetch by the receiver takes the oldest message;
and the answer of a fetch written back to MBX.r ends the operation, the message going to LDM. -/
def Sys2Proof.Machine.PostsAndFetchesMoveMessages : Prop :=
  (∀ (s : State) (h : Hid) (q : MbxReq) (n : Nat), (s.hearth h).mbx = some q → q.kind = .post → q.answer = none → q.mode = .ps →
    n = fld q.t 0 7 → n < 64 → mbEn (s.mbcfg n) = true → mbRcv (s.mbcfg n) ≠ h → (s.hearth (mbRcv (s.mbcfg n))).run ≠ .held →
    s.hub.outs = [] → (s.box n).length < 8 →
    ∃ v, exec (.hubPost h) s = .next v ∧ v.box n = s.box n ++ [⟨s.nextId + 1, q.bytes, .hearth h, s.now⟩]
      ∧ (∀ m, m < 128 → m ≠ n → v.box m = s.box m) ∧ (v.hearth h).mbx = some { q with answer := some 0 }
      ∧ (v.hearth h).pstatOf n = some (s.nextId + 1, 7) ∧ v.mem = s.mem)
  ∧ (∀ (s : State) (h : Hid) (q : MbxReq) (n : Nat) (g : Msg) (r : List Msg), (s.hearth h).mbx = some q → q.kind = .fetch →
    q.answer = none → q.mode = .ps → n = fld q.t 0 7 → n < 64 → mbEn (s.mbcfg n) = true → mbRcv (s.mbcfg n) = h → s.box n = g :: r →
    ∃ v, exec (.hubFetch h) s = .next v ∧ v.box n = r ∧ (∀ m, m < 128 → m ≠ n → v.box m = s.box m)
      ∧ (v.hearth h).mbx = some { q with answer := some (BitVec.ofNat 32 (g.bytes.length * 256)), bytes := g.bytes })
  ∧ (∀ (s : State) (h : Hid) (q : MbxReq) (a : Word), s.Inv → (s.hearth h).mbx = some q → q.kind = .fetch → q.answer = some a →
    q.bytes.length % 4 = 0 →
    ∃ v, exec (.mbxAnswer h) s = .next v ∧ (v.hearth h).mbx = none ∧ (v.hearth h).rs = (s.hearth h).rs.set 12 a
      ∧ ∀ k, v.byte k = if ldmKey h q.o.toNat ≤ k ∧ k < ldmKey h q.o.toNat + q.bytes.length then q.bytes.getD (k - ldmKey h q.o.toNat) 0 else s.byte k)

/-- Mailbox triggers, posts and fetches. -/
def Obligations.MailboxesTakePostsAndFetches : Prop := MailboxTriggersStartOrFault ∧ PostsAndFetchesMoveMessages

/-! ## Vocabulary of register commands (14 R383, R387, R399) -/

/-- Target `t` is free: its clock runs, it holds no burst and no request waits for it. -/
def Sys2Proof.Machine.State.Open (s : State) (t : Fin 19) : Prop :=
  s.targetHeld t = false ∧ s.xb.busy[t] = none ∧ (∀ q ∈ s.xb.reqs, q.target ≠ t) ∧ (∀ (u : Fin 19) b, s.xb.busy[u] = some b → b.target ≠ t)

/-- Nothing keeps master `w` from address `a`: it reaches a target whose island is on and which is free, debug may go there, and no
reset has been asked for. -/
def Sys2Proof.Machine.State.Reaches (s : State) (w : Who) (a : Nat) (wr : Bool) : Prop :=
  (∃ t, targetOf s.remap a = some t ∧ s.targetOff t = false ∧ s.Open t) ∧ s.debugMay (s.carried w) a wr = true ∧ s.pw.ask = none

/-- Master `w` reaches the register at `a` for a write, acting in GS. -/
def Sys2Proof.Machine.State.ReachesGs (s : State) (w : Who) (a : Nat) : Prop := s.Reaches w a true ∧ (s.carried w).mode = .gs

/-- The command is one accepted write that leaves `t`: no bus error, no bytes. -/
def Sys2Proof.Machine.Accepted (i : Instr) (s t : State) : Prop := exec i s = .next { t with xb := { t.xb with ans := (0, []) } }

/-- The command is one read of a word that answers `x` and leaves `t`. -/
def Sys2Proof.Machine.Answered (i : Instr) (s : State) (x : Word) (t : State) : Prop :=
  exec i s = .next { t with xb := { t.xb with ans := (0, leBytes 4 x.toNat) } }

/-- The command ends with a bus error of a KIND: memory, hearths and hub stay, the error is counted. -/
def Sys2Proof.Machine.BusError (i : Instr) (s : State) (kind : Nat) : Prop :=
  ∃ v, exec i s = .next v ∧ v.xb.ans = (kind, []) ∧ v.mem = s.mem ∧ v.hearths = s.hearths ∧ v.hub = s.hub
    ∧ v.reg 0x40030028 = satInc (s.reg 0x40030028)

/-- R377, R379, R381: a ring through MBRING sets the bit of its hearth's doorbell; a read of a free lock takes it and
shows 0, a read of a held one shows its owner and changes nothing; 0 written by the owner frees it, any other write is
recorded; a master of the P world that touches locks 48 to 63 gets a bus error. -/
def Sys2Proof.Machine.DoorbellsAndHobLocks : Prop :=
  (∀ (s : State) (w : Who) (v : Word), s.Reaches w 0x40090020 true → (isG (s.carried w).mode = true ∨ fld v 0 6 < 48) →
    Accepted (.mbring w v) s (s.setHearth (fin 64 (fld v 8 6)) { s.hearth (fin 64 (fld v 8 6)) with
      doorbell := (s.hearth (fin 64 (fld v 8 6))).doorbell ||| BitVec.ofNat 64 (2 ^ fld v 0 6) }))
  ∧ (∀ (s : State) (w : Who) (n : Fin 64) (i : Nat), lockId (s.carried w) = some i → s.Inv →
    s.Reaches w (0x40090800 + 4 * n.val) true → s.Reaches w (0x40090800 + 4 * n.val) false →
    (isG (s.carried w).mode = true ∨ n.val < 48 →
      (s.lock n.val = none → Answered (.hlockRead w n) s 0 { s with hub := { s.hub with locks := s.hub.locks.set n (some i) } })
      ∧ (∀ j, s.lock n.val = some j → Answered (.hlockRead w n) s (BitVec.ofNat 32 (j + 1)) s)
      ∧ (s.lock n.val = some i → Accepted (.hlockWrite w n 0) s { s with hub := { s.hub with locks := s.hub.locks.set n none } })
      ∧ (∀ x : Word, (x ≠ 0 ∨ s.lock n.val ≠ some i) → ∃ v, exec (.hlockWrite w n x) s = .next v ∧ v.hub = s.hub
          ∧ v.mem = s.mem ∧ v.hearths = s.hearths ∧ (v.reg 0x40090008).getLsbD 5 = true
          ∧ v.reg 0x40090A08 = (BitVec.ofNat 32 (n.val + i * 256) ||| 0x80000000)))
    ∧ (isG (s.carried w).mode = false → 48 ≤ n.val → BusError (.hlockRead w n) s 2 ∧ ∀ x, BusError (.hlockWrite w n x) s 2))

/-- The bits of MBCFGm that a mailbox has (Table MB-5): the remote ones have W, DNODE and DMBX. -/
def Sys2Proof.Machine.mbcfgMask (m : Fin 128) : Word := if m.val < 96 then 0xBF else 0x1F3FFFFF

/-- R366, R369 to R372, R375, R380: withdrawal and the expiry of MBXTO outside SERVICE end a post with TIMEOUT, which its sender finds if the post is its last there (in the cycle of the expiry itself a fetch that comes wins, R368); a write of
MBCFG by a GS master changes it, unless MBCTL.LK is set, and clears that mailbox alone, each sender's record becoming
PEERRST; MBSGO posts the staging buffer of its own master; MBLKFREE frees the locks of the bits written. -/
def Sys2Proof.Machine.MailboxTimeoutsAndRegisters : Prop :=
  (∀ (s : State) (m : Fin 128) (g : Msg) (r : List Msg), s.Inv → s.hub.boxes[m] = g :: r → fld (s.reg 0x40090000) 0 2 ≠ 0 →
    g.posted + 1000 * fld (s.reg 0x40090004) 0 24 ≤ s.now →
    (s.fetchComes m.val = false ∨ g.posted + 1000 * fld (s.reg 0x40090004) 0 24 + 8 ≤ s.now) →
    ∃ v, exec (.withdrawal m) s = .next v ∧ v.hub.boxes = s.hub.boxes.set m r ∧ v.mem = s.mem
      ∧ v.reg 0x40090010 = satInc (s.reg 0x40090010) ∧ (v.reg 0x40090008).getLsbD 1 = true
      ∧ (∀ h x, g.sender = .hearth h → (s.hearth h).pstatOf m.val = some (g.id, x) →
          (v.hearth h).pstatOf m.val = some (g.id, 3) ∧ (v.hearth h).icpend = (s.hearth h).icpend ||| 4))
  ∧ (∀ (s : State) (n t : Nat) (o : OutPost), s.hub.outs[n]? = some o → o.tag = some t → fld (s.reg 0x40090000) 0 2 ≠ 0 →
    o.posted + 1000 * fld (s.reg 0x40090004) 0 24 ≤ s.now →
    ∃ v, exec (.mbxtoExpiry n) s = .next v ∧ v.hub.outs = s.hub.outs.filter (fun q => q.id != o.id) ∧ v.mem = s.mem
      ∧ v.hub.boxes = s.hub.boxes
      ∧ (∀ h x, o.sender = .hearth h → (s.hearth h).pstatOf o.box = some (o.id, x) → (v.hearth h).pstatOf o.box = some (o.id, 3)))
  ∧ (∀ (s : State) (w : Who) (m : Fin 128) (x : Word), s.Inv → s.ReachesGs w (0x40090100 + 4 * m.val) →
    ((s.reg 0x40090000).getLsbD 8 = true → Accepted (.mbcfgWrite w m x) s s)
    ∧ ((s.reg 0x40090000).getLsbD 8 = false → ∃ v, exec (.mbcfgWrite w m x) s = .next v
        ∧ v.mbcfg m.val = ((s.mbcfg m.val &&& ~~~(mbcfgMask m)) ||| (x &&& mbcfgMask m)) ∧ v.hub.boxes = s.hub.boxes.set m []
        ∧ v.mem = s.mem ∧ (∀ n : Fin 128, n ≠ m → v.mbcfg n.val = s.mbcfg n.val)
        ∧ (∀ g ∈ s.hub.boxes[m], ∀ h i y, g.sender = .hearth h → (s.hearth h).pstatOf m.val = some (i, y) →
            (v.hearth h).pstatOf m.val = some (i, 5) ∧ (v.hearth h).icpend.getLsbD 2 = true)
        ∧ (∀ g ∈ s.hub.boxes[m], ∀ k, g.sender = .staging k → v.reg (0x40090624 + 64 * k.val) = 5)))
  ∧ (∀ (s : State) (w : Who) (k : Fin 5) (x : Word) (n : Nat), s.Inv → stagingOf (s.carried w).master = some k → stagingOf w.master = some k →
    s.Reaches w (0x40090620 + 64 * k.val) true → n = fld x 0 7 → n < 64 → mbEn (s.mbcfg n) = true →
    (s.hearth (mbRcv (s.mbcfg n))).run ≠ .held → s.hub.outs = [] → (s.box n).length < 8 →
    ∃ v, exec (.mbsgo w x) s = .next v
      ∧ v.hub.boxes = s.hub.boxes.set (fin 128 n) (s.box n ++ [⟨s.nextId + 1,
          ((List.range 8).flatMap (fun i => leBytes 4 (s.reg (0x40090600 + 64 * k.val + 4 * i)).toNat)).take (fld x 8 5 + 1),
          .staging k, s.now⟩])
      ∧ v.reg (0x40090624 + 64 * k.val) = 7 ∧ v.mem = s.mem ∧ v.hearths = s.hearths)
  ∧ (∀ (s : State) (w : Who) (k : Fin 2) (x : Word), s.ReachesGs w (0x40090A00 + 4 * k.val) →
    ∃ v, exec (.mblkfree w k x) s = .next v
      ∧ v = { s with hub := { s.hub with locks := v.hub.locks }, xb := { s.xb with ans := (0, []) } }
      ∧ ∀ n : Fin 64, v.hub.locks[n] = if n.val / 32 = k.val ∧ x.getLsbD (n.val % 32) = true then none else s.hub.locks[n])

/-- Doorbells, hob locks, mailbox time-outs and the mailbox registers. -/
def Obligations.MailboxRegistersDoorbellsAndLocks : Prop := DoorbellsAndHobLocks ∧ MailboxTimeoutsAndRegisters

/-! ## The crossbar (14) -/

/-- `a` is the address of a word of the felt banks. -/
def Sys2Proof.Machine.FeltWord (a : Nat) : Prop := 0x20000000 ≤ a ∧ a + 4 ≤ 0x21400000 ∧ a % 4 = 0

/-- The word of the felt banks at `a` becomes `x` and no other byte changes. Of the hearths only the bank's own does: where its port A has
written the word in the same cycle, FCOLL counts and FCOLLA holds the offset (08 R246, R247). -/
def Sys2Proof.Machine.State.FeltWritten (s v : State) (a : Nat) (x : Word) : Prop :=
  v.rd32 a = x ∧ (∀ k, (k < a ∨ a + 4 ≤ k) → v.byte k = s.byte k) ∧ v.regs = s.regs ∧ v.hub = s.hub
    ∧ (∀ g, g ≠ feltHearth a → v.hearth g = s.hearth g) ∧ (v.hearth (feltHearth a)).g = (s.hearth (feltHearth a)).g
    ∧ (v.hearth (feltHearth a)).rd 0x440 = (if (s.portNow (feltHearth a)).any (fun w => !w.b && w.off == feltOff a)
        then satInc ((s.hearth (feltHearth a)).rd 0x440) else (s.hearth (feltHearth a)).rd 0x440)
    ∧ ((s.portNow (feltHearth a)).any (fun w => !w.b && w.off == feltOff a) = true → (v.hearth (feltHearth a)).rd 0x444 = BitVec.ofNat 32 (feltOff a))

/-- An atomic answers the old word of the felt banks and leaves `x` there. -/
def Sys2Proof.Machine.AtomicGives (i : Instr) (s : State) (a : Nat) (x : Word) : Prop := ∃ v, Answered i s (s.rd32 a) v ∧ s.FeltWritten v a x

/-- R395, R396, 08 R246, R247: a write through an alias sets or clears the bits of its word, an atomic of Table XB-4 on a felt bank answers
the old word and leaves the new one, and each changes nothing else; outside the felt banks an atomic ends with KIND 7. -/
def Obligations.AliasesAndAtomicsChangeTheirWord : Prop :=
  ∀ (s : State) (w : Who) (a x : Word), s.Inv →
    (a.toNat < 0x200000 → a.toNat % 4 = 0 →
      (s.Reaches w (0x18000000 + a.toNat) true →
        Accepted (.bitSetAlias w a x) s (s.wr32 (0x10000000 + a.toNat) (s.rd32 (0x10000000 + a.toNat) ||| x)))
      ∧ (s.Reaches w (0x19000000 + a.toNat) true →
        Accepted (.bitClearAlias w a x) s (s.wr32 (0x10000000 + a.toNat) (s.rd32 (0x10000000 + a.toNat) &&& ~~~x))))
    ∧ (FeltWord a.toNat → s.Reaches w a.toNat true → 1 ≤ w.master.val → w.master.val ≤ 11 →
      AtomicGives (.atomic w .add a x) s a.toNat (s.rd32 a.toNat + x)
      ∧ AtomicGives (.atomic w .swap a x) s a.toNat x
      ∧ AtomicGives (.atomic w .addsH2 a x) s a.toNat (onHalves (fun p q => clampTo 16 (p.toInt + q.toInt)) (s.rd32 a.toNat) x))
    ∧ (∀ op t, (a.toNat < 0x20000000 ∨ 0x21400000 ≤ a.toNat) → targetOf s.remap a.toNat = some t → s.Open t → BusError (.atomic w op a x) s 7)

/-- R384, R385, R400, R483, R7, R10: writes and reads of one register. A plain register written by a master acting in GS takes the
fields written; a read of a count answers it and clears it; a read of the low word of the always-on count latches its high word; REMAP takes its 1; an address of no target is KIND 1. -/
def Obligations.RegisterCommandsReadAndWrite : Prop :=
  ∀ (s : State) (w : Who) (x : Word), s.Inv →
    (s.ReachesGs w 0x40030018 → (s.reg 0x40030000).getLsbD 0 = false →
      ∃ v, Accepted (.registerWrite w 0x40030018 x) s v ∧ v.reg 0x40030018 = (s.reg 0x40030018 &&& ~~~0xF) ||| (x &&& 0xF)
        ∧ (∀ a, a ≠ 0x40030018 → v.reg a = s.reg a) ∧ v = { s with regs := v.regs })
    ∧ (s.Reaches w 0x40030018 true → (s.carried w).mode ≠ .gs → BusError (.registerWrite w 0x40030018 x) s 2)
    ∧ (s.Reaches w 0x40030028 false → ∃ v, Answered (.rcRead w 0x40030028) s (s.reg 0x40030028) v
        ∧ v.reg 0x40030028 = 0 ∧ (∀ a, a ≠ 0x40030028 → v.reg a = s.reg a) ∧ v = { s with regs := v.regs })
    ∧ (∀ n : Nat, s.Reaches w 0x4010001C false → s.pw.lf = true →
        n = min ((s.pw.anow + (s.now - s.pw.mark) * 32768) / 1000000000) (2 ^ 48 - 1) →
        ∃ v, Answered (.latchingRead w 0x4010001C) s (BitVec.ofNat 32 n) v ∧ v.reg 0x40100020 = BitVec.ofNat 32 (n / 2 ^ 32)
          ∧ (∀ a, a ≠ 0x40100020 → v.reg a = s.reg a) ∧ v.mem = s.mem ∧ v.hearths = s.hearths)
    ∧ (s.ReachesGs w 0x40000004 → x.getLsbD 0 = true → ∃ v, Accepted (.remap w x) s v ∧ v.remap = true
        ∧ v.reg 0x40000004 = s.reg 0x40000004 ||| 1 ∧ (∀ a, a ≠ 0x40000004 → v.reg a = s.reg a) ∧ v = { s with regs := v.regs })
    ∧ (∀ a : Word, targetOf s.remap a.toNat = none → BusError (.registerWrite w a x) s 1 ∧ BusError (.rcRead w a) s 1)

/-- `q` and `r` keep the order of their issue: they are of one hearth, or one master, and at one target or both far accesses of that hearth. -/
def Sys2Proof.Machine.InOrder (q r : XReq) : Prop :=
  q.who.master = r.who.master ∧ q.who.hearth = r.who.hearth ∧ (q.target = r.target ∨ (q.isFar = true ∧ r.isFar = true))

/-- The request `r` of the waiting ones `a ++ r :: b` may be granted: no earlier one and no burst in progress comes before it by its
order, no closed line of the program store keeps it, and its target's clock runs. -/
def Sys2Proof.Machine.State.Grantable (s : State) (a : List XReq) (r : XReq) : Prop :=
  s.targetHeld r.target = false ∧ (∀ q ∈ a, ¬ InOrder q r) ∧ (∀ (u : Fin 19) b, s.xb.busy[u] = some b → ¬ InOrder b r) ∧ s.lineWaits r = false

/-- `q` yields to `r` by the fixed priority: a later master, or the same and a hearth of later local index. -/
def Sys2Proof.Machine.Yields (q r : XReq) : Prop :=
  r.who.master.val < q.who.master.val
  ∨ (r.who.master = q.who.master ∧ ∃ g h : Hid, r.who.hearth = some g ∧ q.who.hearth = some h ∧ g.val % 8 < h.val % 8)

/-- R391, R392: a free target grants the oldest promoted request, and without one the request to which all others there
yield; a request that has waited XAGE.LIM system cycles is promoted; the longest wait of a master is kept in XWAITm. A busy target, and one whose clock stands, grants nothing. -/
def Sys2Proof.Machine.GrantsFollowPromotionAndPriority : Prop :=
  (∀ (s : State) (t : Fin 19) (a b : List XReq) (r : XReq), s.xb.busy[t] = none → s.xb.reqs = a ++ r :: b → r.target = t →
    (∀ q ∈ a ++ b, q.id ≠ r.id) → s.Inv → s.Grantable a r →
    (r.promoted = true ∧ (∀ q ∈ a, q.target = t → q.promoted = false)
      ∨ (∀ q ∈ a ++ b, q.target = t → q.promoted = false ∧ Yields q r)) →
    ∃ v n, exec (.grant t) s = .next v ∧ (t ≠ 3 → n = none) ∧ v.xb = { s.xb with reqs := a ++ b, busy := s.xb.busy.set t (some { r with snap := n }) }
      ∧ v.reg (0x40030040 + 4 * r.who.master.val) = BitVec.ofNat 32 (max (s.reg (0x40030040 + 4 * r.who.master.val)).toNat
          (min 65535 ((s.now - r.issued) * 3 / 10)))
      ∧ (∀ k, k ≠ 0x40030040 + 4 * r.who.master.val → v.reg k = s.reg k) ∧ v = { s with xb := v.xb, regs := v.regs })
  ∧ (∀ (s : State) (t : Fin 19) (r : XReq), s.xb.busy[t] = some r ∨ s.targetHeld t = true → exec (.grant t) s = .next s)
  ∧ (∀ (s : State) (a b : List XReq) (r : XReq), s.xb.reqs = a ++ r :: b → fld (s.reg 0x40030014) 0 12 ≠ 0 →
    fld (s.reg 0x40030014) 0 12 ≤ (s.now - r.issued) * 3 / 10 →
    exec (.promotion a.length) s = .next { s with xb := { s.xb with reqs := a ++ { r with promoted := true } :: b } })
  ∧ (∀ (s : State) (t : Fin 19), s.xb.busy[t] = none → ∃ v, exec (.sliceChange t) s = .next v
    ∧ v = { s with xb := { s.xb with slices := v.xb.slices } }
    ∧ ∀ i : Fin 19, v.xb.slices.getLsbD i.val = if i = t then (s.reg 0x40030004).getLsbD t.val else s.xb.slices.getLsbD i.val)

/-- R388 to R390, R397, R398, R376: a granted burst on a felt bank is performed whole and frees its target, unless its clock stands: a write leaves its
bytes, a read answers them, to the far access that waits for them; a burst cut off by the reset of its master or the loss
of its island leaves every byte outside it, frees the target and is logged with its KIND; a reset of Ethernet frees its locks
and its staging record, one of a bellows engine the engine. -/
def Sys2Proof.Machine.BurstsArePerformedOrAborted : Prop :=
  (∀ (s : State) (t : Fin 19) (r : XReq) (h : Hid) (f : FarOp) (k : Nat), s.xb.busy[t] = some r → r.target = t → r.origin = .far h k →
    (s.hearth h).far = [f] → f.id = k → r.who = portOf h f.mode → targetOf s.remap r.addr = some t → s.targetOff t = false →
    s.Inv → s.targetHeld t = false → s.pw.ask = none → FeltWord r.addr →
    (∀ x : Word, r.op = .write [x.extractLsb' 0 8, x.extractLsb' 8 8, x.extractLsb' 16 8, x.extractLsb' 24 8] →
      ∃ u v, exec (.burst t) s = .next v ∧ { s with xb := { s.xb with busy := s.xb.busy.set t none } }.FeltWritten u r.addr x
        ∧ v = u.setHearth h { u.hearth h with far := [{ f with status := .answered 0 }] })
    ∧ (r.op = .read 4 → exec (.burst t) s = .next ({ s with
        xb := { s.xb with busy := s.xb.busy.set t none } }.setHearth h { s.hearth h with far := [{ f with status := .answered (s.rd32 r.addr) }] })))
  ∧ (∀ (s : State) (m : Fin 15) (t : Fin 19) (r : XReq) (bs : List Byte), s.Inv → s.xb.busy[t] = some r → r.who.master = m →
    (∀ u : Fin 19, u ≠ t → s.xb.busy[u] = none) → r.op = .write bs → r.target = t → 0x20000000 ≤ r.addr →
    r.addr + bs.length ≤ 0x21400000 → (s.reg 0x40030024).getLsbD 31 = false →
    ∃ v, exec (.masterResetAbort m) s = .next v ∧ v.xb.busy[t] = none ∧ (∀ q ∈ v.xb.reqs, q.who.master ≠ m)
      ∧ (∀ q ∈ s.xb.reqs, q.who.master ≠ m → q ∈ v.xb.reqs)
      ∧ (∀ a, (a < r.addr ∨ r.addr + bs.length ≤ a) → v.byte a = s.byte a)
      ∧ fld (v.reg 0x40030024) 9 4 = 6 ∧ (v.reg 0x40030024).getLsbD 31 = true ∧ v.reg 0x40030028 = satInc (s.reg 0x40030028)
      ∧ (m = 12 → v.reg 0x400906A4 = 0 ∧ ∀ n : Fin 64, s.hub.locks[n] = some 68 → v.hub.locks[n] = none)
      ∧ (m = 9 → v.bel[(0 : Fin 2)] = Bel.reset) ∧ (m = 10 → v.bel[(1 : Fin 2)] = Bel.reset))
  ∧ (∀ (s : State) (t : Fin 19) (r : XReq), s.xb.busy[t] = some r → s.targetHeld t = true → exec (.burst t) s = .next s)
  ∧ (∀ (s : State) (t : Fin 19) (r : XReq) (bs : List Byte), s.Inv → 5 ≤ t.val → t.val ≤ 12 → s.xb.busy[t] = some r → r.op = .write bs →
    r.target = t → 0x20000000 ≤ r.addr → r.addr + bs.length ≤ 0x21400000 → (s.reg 0x40030024).getLsbD 31 = false →
    ∃ v, exec (.islandPowerLoss t) s = .next v ∧ v.xb.busy[t] = none ∧ v.targetOff t = true
      ∧ (∀ a, (a < r.addr ∨ r.addr + bs.length ≤ a) → v.byte a = s.byte a)
      ∧ fld (v.reg 0x40030024) 9 4 = 3 ∧ (v.reg 0x40030024).getLsbD 31 = true
      ∧ (∀ h k f, r.origin = .far h k → (s.hearth h).far = [f] → f.id = k → (v.hearth h).far = [{ f with status := .failed 9 }]))

/-- The crossbar: which request a target grants, and how bursts end. -/
def Obligations.CrossbarGrantsAndBursts : Prop := GrantsFollowPromotionAndPriority ∧ BurstsArePerformedOrAborted

/-! ## The fulling unit (08, 09) -/

/-- The fulling unit of `h` is at work on its first request, and a trigger with this NR finds a place and an entry. -/
def Sys2Proof.Machine.State.FulRoom (s : State) (h : Hid) (nr : Bool) : Prop :=
  (∃ q r, (s.hearth h).ful = q :: r ∧ q.started = true) ∧ (nr = true ∨ (s.hearth h).fulPend = false)
    ∧ (s.hearth h).nFrq < 12 ∧ (s.hearth h).ottUsed < 48

/-- The command queues a request of kind `k` behind the others, with the range its operand word gives; with NR = 0
FUL.r is pending. Nothing else changes. -/
def Sys2Proof.Machine.FulGives (c : Hid → Word → Instr) (k : Word → FulKind) (first count scope : Word → Word → Nat) : Prop :=
  ∀ (s : State) (h : Hid) (t : Word), s.FulRoom h (t.getLsbD 7) →
    exec (c h t) s = .next { s.setHearth h { s.hearth h with
        ful := (s.hearth h).ful ++ [(s.hearth h).fulReq (s.nextId + 1) (k t) (t.getLsbD 7)
          (first t ((s.hearth h).opnd 0x33)) (count t ((s.hearth h).opnd 0x33)) (scope t ((s.hearth h).opnd 0x33))]
        fulPend := (s.hearth h).fulPend || !t.getLsbD 7 } with
      nextId := s.nextId + 1 }

/-- The command starts its request on an idle unit whose FUL.r it may use: the queue holds it alone, started; with NR = 0 FUL.r is
pending. -/
def Sys2Proof.Machine.FulStarts (c : Hid → Word → Instr) (k : Word → FulKind) : Prop :=
  ∀ (s : State) (h : Hid) (t : Word), (s.hearth h).ful = [] → (t.getLsbD 7 = true ∨ (s.hearth h).fulPend = false) → (s.hearth h).nFrq < 12 →
    (s.hearth h).ottUsed < 48 → ∃ v q, exec (c h t) s = .next v ∧ (v.hearth h).ful = [q] ∧ q.kind = k t ∧ q.nr = t.getLsbD 7
      ∧ q.started = true ∧ (v.hearth h).fulPend = ((s.hearth h).fulPend || !t.getLsbD 7) ∧ v.mem = s.mem

/-- R236, Table FE-7, R257, R266: on a unit at work the FUL triggers queue their requests behind the others, on an idle one they start
them; a reduction of a participant that asks for lanes takes the next number of its hearth. A trigger that finds the queue full, or FUL.r pending with NR = 0, is held a cycle. -/
def Obligations.FullingTriggersQueueRequests : Prop :=
  FulGives .fk0 (fun _ => .run 0) (fun _ o => fld o 0 12) (fun _ o => fld o 16 13) (fun _ _ => 0)
  ∧ FulGives .fk1 (fun _ => .run 1) (fun _ o => fld o 0 12) (fun _ o => fld o 16 13) (fun _ _ => 0)
  ∧ FulGives .fk2 (fun _ => .run 2) (fun _ o => fld o 0 12) (fun _ o => fld o 16 13) (fun _ _ => 0)
  ∧ FulGives .fk3 (fun _ => .run 3) (fun _ o => fld o 0 10) (fun _ o => fld o 16 11) (fun _ _ => 0)
  ∧ FulGives .fk4 (fun _ => .run 4) (fun _ o => fld o 0 12) (fun _ o => fld o 16 13) (fun _ _ => 0)
  ∧ FulGives .fk5 (fun _ => .run 5) (fun _ o => fld o 0 12) (fun _ o => fld o 16 13) (fun _ _ => 0)
  ∧ FulGives .step (fun t => .step (fld t 0 3)) (fun _ _ => 0) (fun _ _ => 0) (fun _ _ => 0)
  ∧ FulGives .lrun (fun _ => .lrun) (fun _ o => fld o 0 10) (fun _ o => fld o 16 10) (fun _ _ => 0)
  ∧ (∀ (s : State) (h : Hid) (t : Word) (a n : Nat), s.FulRoom h (t.getLsbD 7) → fld t 0 2 ≤ 1 → ((s.hearth h).rd 0x498).getLsbD 0 = true →
      a = fld ((s.hearth h).opnd 0x33) 0 9 → n = fld ((s.hearth h).opnd 0x33) 16 10 → n ≠ 0 → a + n ≤ 512 →
      exec (.red h t) s = .next { s.setHearth h { s.hearth h with
          ful := (s.hearth h).ful ++ [{ (s.hearth h).fulReq (s.nextId + 1) .red (t.getLsbD 7) a n (fld t 0 2) with num := (s.hearth h).redN + 1 }]
          redN := (s.hearth h).redN + 1, fulPend := (s.hearth h).fulPend || !t.getLsbD 7 } with
        nextId := s.nextId + 1 })
  ∧ FulStarts .fk0 (fun _ => .run 0) ∧ FulStarts .fk1 (fun _ => .run 1) ∧ FulStarts .fk2 (fun _ => .run 2) ∧ FulStarts .fk3 (fun _ => .run 3)
  ∧ FulStarts .fk4 (fun _ => .run 4) ∧ FulStarts .fk5 (fun _ => .run 5) ∧ FulStarts .step (fun t => .step (fld t 0 3)) ∧ FulStarts .lrun (fun _ => .lrun)
  ∧ FulStarts .red (fun _ => .red)
  ∧ (∀ (s : State) (h : Hid) (t : Word) (c : Hid → Word → Instr), c ∈ [Instr.fk0, .fk1, .fk2, .fk3, .fk4, .fk5, .step, .red, .lrun] →
      (12 ≤ (s.hearth h).nFrq ∨ (t.getLsbD 7 = false ∧ (s.hearth h).fulPend = true)) →
      (s.hearth h).sb = [] → (s.hearth h).sbNew = [] → ∃ v, exec (c h t) s = .next v
        ∧ (v.hearth h).ful = (s.hearth h).ful ∧ (v.hearth h).pc = (s.hearth h).pc ∧ (v.hearth h).stallc = (s.hearth h).stallc + 1)

/-- The heat that a conducting face `f` of cell `c` brings member `m`: G times the difference of the codes (R220, R229). -/
def Sys2Proof.Machine.State.conducted (s : State) (h : Hid) (c m f : Nat) : Int :=
  if s.rd16 (feltKey h (64 * c + 0x20 + 2 * f)) % 8192 = 8191 then 0
  else (s.rd16 (feltKey h (64 * c + 0x32 + 2 * f)) : Int)
    * ((if s.rd16 (feltKey h (64 * c + 0x20 + 2 * f)) % 8192 < 4096 then
          s.rd16 (feltKey h (64 * (s.rd16 (feltKey h (64 * c + 0x20 + 2 * f)) % 8192) + 2 * m))
        else s.rd16 (feltKey h (0x40000 + 16 * (s.rd16 (feltKey h (64 * c + 0x20 + 2 * f)) % 8192 - 4096) + 2 * m)) : Nat)
      - s.rd16 (feltKey h (64 * c + 2 * m)))

/-- The run of `h` that its trigger with NR `nr` started on an idle unit has ended OK from `u` to `v`: the queue is empty, and FUL.r
holds 0 or line 6 is pending. -/
def Sys2Proof.Machine.State.RunOk (u v : State) (h : Hid) (nr : Bool) : Prop :=
  exec (.fullingCompletion h) u = .next v ∧ (v.hearth h).ful = [] ∧ (v.hearth h).fulPend = false
    ∧ (if nr then (v.hearth h).icpend.getLsbD 6 = true else (v.hearth h).rs[11] = 0)

/-- R221, R229, R233: FK0 over one cell of an idle unit, whose bank no other port writes, from its trigger to its completion. Members of an ordinary cell with conducting faces move by
floor((CINV x the sum over its faces + 2^27) / 2^28), clamped to 16 bits; a frozen cell keeps its bytes. No byte but the
cell's temperature codes changes. -/
def Sys2Proof.Machine.KernelZeroConductsHeat : Prop :=
  ∀ (s : State) (h : Hid) (t : Word) (c : Nat), s.Inv → (s.hearth h).ful = [] → (s.hearth h).fulPend = false → (s.hearth h).ottUsed < 48 →
    s.stackRuns (stackOf h) = true → (s.hearth h).fnsLate = [] → s.portNow h = [] →
    c = fld ((s.hearth h).opnd 0x33) 0 12 → fld ((s.hearth h).opnd 0x33) 16 13 = 1 →
    (s.cellBad h c = false → (s.byte (feltKey h (64 * c + 0x2D))).toNat % 2 = 0 → (s.byte (feltKey h (64 * c + 0x2D))).toNat / 8 % 2 = 0 →
      (∀ f < 6, s.rd16 (feltKey h (64 * c + 0x20 + 2 * f)) / 8192 = 0 ∨ s.rd16 (feltKey h (64 * c + 0x20 + 2 * f)) % 8192 = 8191) →
      ∃ u v, exec (.fk0 h t) s = .next u ∧ u.mem = s.mem ∧ u.RunOk v h (t.getLsbD 7) ∧ (v.hearth h).g = (s.hearth h).g
        ∧ (∀ m < 8, (v.rd16 (feltKey h (64 * c + 2 * m)) : Int) = max 0 (min 65535 (s.rd16 (feltKey h (64 * c + 2 * m))
            + ((s.rd16 (feltKey h (64 * c + 0x30)) : Int) * (s.conducted h c m 0 + s.conducted h c m 1 + s.conducted h c m 2
              + s.conducted h c m 3 + s.conducted h c m 4 + s.conducted h c m 5) + 2 ^ 27) / 2 ^ 28)))
        ∧ (∀ a, (a < feltKey h (64 * c) ∨ feltKey h (64 * c) + 16 ≤ a) → v.byte a = s.byte a))
    ∧ ((s.byte (feltKey h (64 * c + 0x2D))).toNat / 8 % 2 = 1 → ∃ u v, exec (.fk0 h t) s = .next u ∧ u.RunOk v h (t.getLsbD 7) ∧ v.mem = s.mem)

/-- R236, R238, R239, R255: a request that is done leaves the queue and tells its hearth by FUL.r, or with NR by line 6; the
lanes of FK4 are written; of the entries under way to a bank that no other write reaches in this cycle, the one that R239 serves first
lands in its halo slot, whole. -/
def Sys2Proof.Machine.FullingRequestsEndAndHaloEntriesLand : Prop :=
  (∀ (s : State) (h : Hid) (q : FulReq), (s.hearth h).ful = [q] → q.done = true → s.stackRuns (stackOf h) = true → (s.hearth h).fnsLate = [] → q.kind ≠ .run 4 →
    (q.nr = false → exec (.fullingCompletion h) s = .next (s.setHearth h { s.hearth h with
        ful := [], fulPend := false
        rs := (s.hearth h).rs.set 11 (BitVec.ofNat 32 (q.status.toNat + (if q.bad then 256 else 0) + (if q.clamp then 512 else 0)
          + (if q.band then 1024 else 0))) }))
    ∧ (q.nr = true → exec (.fullingCompletion h) s = .next (s.setHearth h { s.hearth h with ful := [], icpend := (s.hearth h).icpend ||| 0x40 })))
  ∧ (∀ (s : State) (h : Hid) (q : FulReq), s.Inv → (s.hearth h).ful = [q] → q.done = true → s.stackRuns (stackOf h) = true → q.kind = .run 4 → q.status = 0 → q.count ≠ 0 →
    q.lanes.length = 512 → (∀ x ∈ q.lanes, -(2 ^ 63) ≤ x ∧ x < 2 ^ 63) →
    ∃ v, exec (.fullingCompletion h) s = .next v ∧ (v.hearth h).ful = []
      ∧ (∀ i < 512, some (v.laneAt h i) = q.lanes[i]?)
      ∧ (∀ a, (a < feltKey h 0x4E400 ∨ feltKey h 0x4F400 ≤ a) → v.byte a = s.byte a))
  ∧ (∀ (s : State) (h : Hid) (a b : List HaloItem) (i : HaloItem), s.Inv → s.felt.items = a ++ i :: b → i ∉ a → (∀ j ∈ a ++ b, j.dst = h → haloBefore i j = true) → i.dst = h → i.hslot < 2048 →
    s.stackRuns (stackOf h) = true → s.portNow h = [] → i.data.length = 8 → (∀ x ∈ i.data, x < 65536) → (∀ q ∈ (s.hearth i.src).ful, q.id ≠ i.req) →
    ∃ v, exec (.haloLanding h) s = .next v ∧ v.felt.items = a ++ b ∧ (∀ g, g ≠ h → v.hearth g = s.hearth g) ∧ (v.hearth h).cr = (s.hearth h).cr
      ∧ (∀ m < 8, some (v.rd16 (feltKey h (0x40000 + 16 * i.hslot + 2 * m))) = i.data[m]?)
      ∧ (∀ k, (k < feltKey h (0x40000 + 16 * i.hslot) ∨ feltKey h (0x40000 + 16 * i.hslot) + 16 ≤ k) → v.byte k = s.byte k))

/-- Kernel 0 conducts heat; fulling requests end and halo entries land. -/
def Obligations.FullingComputesAndEnds : Prop := KernelZeroConductsHeat ∧ FullingRequestsEndAndHaloEntriesLand

/-- The running hearths among those of stack `k`, or all of the device, that have arrived at the SYNC barrier of a scope. -/
def Sys2Proof.Machine.State.atSync (s : State) (scope : SyncScope) (k : Fin 8) : List Hid :=
  (if scope = .stack then (List.finRange 64).filter (fun h => h.val / 8 == k.val) else List.finRange 64).filter
    (fun h => (s.hearth h).run == .running && (s.hearth h).arr0 == some scope)

/-- A running participant of the scope that has not arrived at its SYNC barrier. -/
def Sys2Proof.Machine.State.missing (s : State) (scope : SyncScope) (k : Fin 8) (h : Hid) : Prop :=
  (scope = .stack → h.val / 8 = k.val) ∧ (s.hearth h).takesPart 0 scope = true ∧ (s.hearth h).run = .running ∧ (s.hearth h).arr0 ≠ some scope

/-- R241, R242, R244: a barrier of stack or device scope on running stacks ends at once for all that have arrived when no participant is missing, and not
before: a SYNC releases its hearths, one whose participation bit was cleared meanwhile too; barrier B ends their steps. FRTO, counted from the sending of the tokens or of an entry,
ends a remote wait with TIMEOUT, and not before. -/
def Obligations.BarriersReleaseAllParticipants : Prop :=
  (∀ (s : State) (scope : SyncScope) (k : Fin 8), scope ≠ .neighbourhood → (∀ j : Fin 8, s.stackRuns j = true) →
    (∀ h ∈ s.atSync scope k, (s.hearth h).wait = .sync scope) →
    ((∀ h, ¬ s.missing scope k h) →
      ∃ v, exec (.barrierComplete 0 scope k) s = .next v ∧ v.mem = s.mem ∧ v.regs = s.regs
        ∧ ∀ h, v.hearth h = if h ∈ s.atSync scope k then { s.hearth h with arr0 := none, arrLost := false, wait := .none } else s.hearth h)
    ∧ (∀ h, s.missing scope k h → exec (.barrierComplete 0 scope k) s = .next s))
  ∧ (∀ (s : State) (k : Fin 8) (ps : List Hid), s.Inv → s.stackRuns k = true →
    ps = ((List.finRange 64).filter (fun h => h.val / 8 == k.val)).filter
      (fun h => ((s.hearth h).rd 0x460).getLsbD 8 && (s.hearth h).run == .running) →
    (∀ h ∈ ps, ∃ q r, (s.hearth h).ful = q :: r ∧ q.started = true ∧ q.done = false ∧ q.phase = 3 ∧ q.scope = 0) →
    (∀ h : Hid, h.val / 8 = k.val → h ∉ ps → (s.hearth h).ful = []) →
    ∃ v, exec (.barrierComplete 1 .stack k) s = .next v ∧ v.mem = s.mem
      ∧ (∀ h ∈ ps, (v.hearth h).ful = (match (s.hearth h).ful with
          | [] => []
          | q :: r => { q with done := true } :: r)
        ∧ fld ((v.hearth h).rd 0x41C) 0 16 = (fld ((s.hearth h).rd 0x41C) 0 16 + 1) % 65536)
      ∧ (∀ h, h ∉ ps → v.hearth h = s.hearth h))
  ∧ (∀ (s : State) (h : Hid), s.Inv → (s.hearth h).arr0 = some .neighbourhood → (s.hearth h).arrLost = false → s.stackRuns (stackOf h) = true →
    ((∃ t0, (0, t0) ∈ s.felt.sent ∧ t0 + 1000 * fld ((s.hearth h).rd 0x45C) 0 16 ≤ s.now) →
      ∃ v, exec (.frtoExpiry h) s = .next v ∧ v = s.setHearth h (v.hearth h) ∧ (v.hearth h).arrLost = true
        ∧ ((v.hearth h).rd 0x40C).getLsbD 11 = true ∧ (v.hearth h).arr0 = some .neighbourhood)
    ∧ ((∀ t0, (0, t0) ∈ s.felt.sent → s.now < t0 + 1000 * fld ((s.hearth h).rd 0x45C) 0 16) → exec (.frtoExpiry h) s = .next s))
  ∧ (∀ (s : State) (h : Hid) (q : FulReq), s.Inv → (s.hearth h).arr0 = none → (s.hearth h).ful = [q] → q.started = true → q.done = false →
    s.stackRuns (stackOf h) = true → q.kind = .run 3 → q.phase = 0 → q.remote ≠ 0 → q.halo = 0 → q.count ≤ q.next → q.status = 0 →
    (∀ t ∈ s.lk.tags, ∀ i, t.2.1 = .halo h i → t.2.2 + 1000 * fld ((s.hearth h).rd 0x45C) 0 16 ≤ s.now) →
    (s.lk.tags.filter (fun t => match t.2.1 with
      | .halo g _ => g == h
      | _ => false)).length = q.remote →
    ∃ v, exec (.frtoExpiry h) s = .next v ∧ ((v.hearth h).rd 0x40C).getLsbD 11 = true
      ∧ (v.hearth h).ful = [{ q with status := 3, remote := 0, done := true }] ∧ v.mem = s.mem
      ∧ (∀ t u, t ∈ v.lk.tags → t.2.1 ≠ .halo h u))

/-- R258, R261: a reduction of a running stack, or with `d` of the device, completes when every participant has its request there: each
one's lanes receive the sums over the participants, saturated to 64 bits, the requests are done with OK, line 7 is raised on all hearths,
and no other byte changes. -/
def Obligations.ReductionsSumOverParticipants : Prop :=
  ∀ (s : State) (d : Bool) (k : Fin 8) (n first count : Nat) (lanes : Hid → List Int) (ps : List Hid), s.Inv →
    (∀ j : Fin 8, d = true ∨ j = k → s.stackRuns j = true) →
    ps = ((List.finRange 64).filter (fun h => d || h.val / 8 == k.val)).filter (fun h => ((s.hearth h).rd 0x498).getLsbD 0) →
    ps ≠ [] → n ≠ 0 → count ≠ 0 → first + count ≤ 512 → (∀ h q, (s.hearth h).redAt n = some q → d = false → q.scope = 0) →
    (∀ h : Hid, d = true ∨ h.val / 8 = k.val → h ∉ ps → (s.hearth h).redOld = [] ∧ (s.hearth h).ful = []) →
    (∀ h ∈ ps, (s.hearth h).redOld = [] ∧ (lanes h).length = count ∧ ∃ q r, (s.hearth h).ful = q :: r ∧ q.kind = .red ∧ q.started = true
      ∧ q.done = false ∧ q.num = n ∧ q.scope = (if d then 1 else 0) ∧ q.first = first ∧ q.count = count ∧ q.lanes = lanes h) →
    ∃ v, exec (.reductionComplete d k) s = .next v
      ∧ (∀ h ∈ ps, ∀ i < count, v.laneAt h (first + i) =
          max (-(2 ^ 63)) (min (2 ^ 63 - 1) ((ps.map (fun g => (lanes g).getD i 0)).sum)))
      ∧ (∀ h ∈ ps, (v.hearth h).ful = (match (s.hearth h).ful with
          | [] => []
          | q :: r => { q with status := 0, done := true } :: r))
      ∧ (∀ h, (v.hearth h).icpend.getLsbD 7 = true)
      ∧ (∀ a, (∀ h ∈ ps, ∀ i < count, ¬ (feltKey h (0x4E400 + 8 * (first + i)) ≤ a ∧ a < feltKey h (0x4E400 + 8 * (first + i)) + 8)) →
          v.byte a = s.byte a)

/-! ## Software lines and draughts (07) -/

/-- Every hearth is as before, but for event lines that were raised. -/
def Sys2Proof.Machine.State.OnlyLines (s v : State) : Prop :=
  ∀ h, v.hearth h = { s.hearth h with icpend := (v.hearth h).icpend, nmi30 := (v.hearth h).nmi30, nmi31 := (v.hearth h).nmi31 }
    ∧ (s.hearth h).icpend &&& ~~~(v.hearth h).icpend = 0

/-- R193, R215 to R217: ICSET raises the software lines written; a draught that is enabled takes its two keys in order and
counts again from TO; another key, or a reload sooner than WMIN, makes it expire; it warns once at WARN; at 0 it expires,
which quenches, and a P draught with ACT = 0 raises line 30 on the GS supervisor hearth. -/
def Obligations.DraughtsAreFedWarnAndExpire : Prop :=
  (∀ (s : State) (w : Who) (h : Hid) (x : Word), s.ReachesGs w (0x50000000 + h.val * 0x800 + 0x10C) →
    Accepted (.icset w h x) s (s.setHearth h { s.hearth h with icpend := (s.hearth h).icpend ||| (x &&& 0x00FF0000) }))
  ∧ (∀ (s : State) (w : Who) (d : Draught) (g : Dgt), s.Inv → s.ReachesGs w (dgBase d + 0x10) → g = s.dg[dgIx d] →
    (s.reg (dgBase d)).getLsbD 0 = true → g.exp = none →
    Accepted (.dgfeed w d 0x3C) s { s with dg := s.dg.set (dgIx d) { g with key := true } }
    ∧ (g.key = true → (g.prev = none ∨ ∃ t, g.prev = some t ∧ fld (s.reg (dgBase d + 8)) 0 24 * 1000 ≤ s.now - t) →
        ∃ v, exec (.dgfeed w d 0xC3) s = .next v ∧ v.mem = s.mem
          ∧ v.dg[dgIx d] = { g with key := false, prev := some s.now, load := s.now, tout := fld (s.reg (dgBase d + 4)) 0 24
                                    warned := false, hold := if s.pw.st = 0 then none else some 0 })
    ∧ (∀ x : Word, fld x 0 8 ≠ 0x3C → (fld x 0 8 ≠ 0xC3 ∨ g.key = false) → ∃ v, exec (.dgfeed w d x) s = .next v ∧ v.mem = s.mem
        ∧ v.dg[dgIx d] = { g with key := false, exp := some s.now } ∧ (v.reg (dgBase d + 0x18)).getLsbD 2 = true ∧ v.dm.drt = true)
    ∧ (∀ t, g.key = true → g.prev = some t → s.now - t < fld (s.reg (dgBase d + 8)) 0 24 * 1000 →
        ∃ v, exec (.dgfeed w d 0xC3) s = .next v ∧ v.dg[dgIx d] = { g with key := false, exp := some s.now }
          ∧ (v.reg (dgBase d + 0x18)).getLsbD 1 = true))
  ∧ (∀ (s : State) (d : Draught) (g : Dgt) (n : Nat), s.Inv → g = s.dg[dgIx d] → (s.reg (dgBase d)).getLsbD 0 = true → s.pw.st = 0 →
    g.exp = none → n = fld (s.reg (dgBase d + 0xC)) 0 24 → n ≠ 0 → s.dgCount d ≤ n → g.warned = false →
    ∃ v, exec (.draughtWarning d) s = .next v ∧ v.dg = s.dg.set (dgIx d) { g with warned := true } ∧ v.mem = s.mem
      ∧ (v.reg (dgBase d + 0x18)).getLsbD 0 = true ∧ s.OnlyLines v
      ∧ (∀ h, (v.hearth h).icpend = (s.hearth h).icpend ||| (if d = .g then 0x20000000 else 0x20)))
  ∧ (∀ (s : State) (d : Draught) (g : Dgt), s.Inv → g = s.dg[dgIx d] → (s.reg (dgBase d)).getLsbD 0 = true → s.pw.st = 0 →
    g.exp = none → s.dgCount d = 0 →
    ∃ v, exec (.draughtExpiry d) s = .next v ∧ v.dg = s.dg.set (dgIx d) { g with exp := some s.now, key := false } ∧ v.mem = s.mem
      ∧ v.dm.drt = true ∧ (∀ o : Fin 96, (v.dm.out[o]).mask.getLsbD 11 = true ∧ ((s.dm.out[o]).mask.getLsbD 11 = false → (v.dm.out[o]).win = none))
      ∧ (d = .p → (s.reg (dgBase .p)).getLsbD 2 = false → ∀ h, (s.hearth h).gsh = true →
          (v.hearth h).icpend.getLsbD 30 = true ∧ (v.hearth h).nmi30 = true))

/-! ## The epoch and the mantel (02, 10) -/

/-- R41, R278, R279, R284, R321, Table MN-3, R519: the edges. At a tick edge of a device that stands alone the number grows
by 1, the edge instant by P, the pages shift, a slice committed on time shows its fill frame and another keeps its frame, the
missing participants are recorded, the seal of the ended epoch is due, the ECMT vector of the participants (log entry 49) goes to the damper, and line 3 is
raised on all hearths; no byte of memory changes. The first edge starts epoch 1 now and forms no page. -/
def Sys2Proof.Machine.TickEdgesStartEpochs : Prop :=
  (∀ s : State, s.Inv → s.ep.started = true → s.pw.st < 2 → s.ep.edge + s.ep.per * 1000 ≤ s.td → s.ep.epdlGone = true →
    s.dm.vec = none → s.afe.edge = false → s.ep.copies = [] → s.ep.resync = none → s.ep.heldSeal = none → s.ep.step = none → (s.reg 0x40040000).getLsbD 2 = false →
    (s.reg 0x400B003C).getLsbD 0 = false →
    ∃ v, exec .tickEdge s = .next v ∧ v.ep.cur = s.ep.cur + 1 ∧ v.ep.edge = s.ep.edge + s.ep.per * 1000 ∧ v.ep.ecmt = 0
      ∧ v.ep.pgC = some s.ep.cur ∧ v.ep.pgC1 = s.ep.pgC ∧ v.ep.pgC2 = s.ep.pgC1 ∧ v.ep.gate = false ∧ v.ep.epdlGone = false
      ∧ (∀ h : Hid, (v.ep.maps[h]).c = (if s.ep.ecmt.getLsbD h.val then (s.ep.maps[h]).fill else (s.ep.maps[h]).c.or (s.ep.maps[h]).fill)
          ∧ (v.ep.maps[h]).c1 = (s.ep.maps[h]).c ∧ (v.ep.maps[h]).c2 = (s.ep.maps[h]).c1)
      ∧ v.ep.elate = s.ep.part &&& ~~~s.ep.ecmt ∧ v.ep.per = fld (s.reg 0x40040004) 0 17
      ∧ v.ep.heldSeal = some ⟨s.ep.cur, if s.ep.part &&& ~~~s.ep.ecmt = 0 then [] else [⟨s.nodeId, false, true⟩], false⟩
      ∧ v.dm.vec = some ⟨s.ep.ecmt &&& s.ep.part, false, fld (s.reg 0x40040004) 0 17 * 1000⟩
      ∧ (∀ h, (v.hearth h).icpend.getLsbD 3 = true) ∧ s.OnlyLines v ∧ v.mem = s.mem ∧ v.bank = s.bank ∧ v.td = s.td)
  ∧ (∀ s : State, s.Inv → s.ep.started = false → (s.reg 0x40040000).getLsbD 0 = true → (s.reg 0x40040000).getLsbD 2 = false →
    s.ep.per ≠ 0 → s.pw.st < 2 → s.ep.step = none →
    ∃ v, exec .firstTickEdge s = .next v ∧ v.ep.started = true ∧ v.ep.cur = 1 ∧ v.ep.edge = s.td ∧ v.ep.gate = true ∧ v.ep.ecmt = 0
      ∧ v.ep.pgC = s.ep.pgC ∧ v.dm.vec = s.dm.vec ∧ (∀ h, (v.hearth h).icpend.getLsbD 3 = true) ∧ s.OnlyLines v ∧ v.mem = s.mem)

/-- R150, R154, R175, 08 R249, 16 R446: the edge at a stack whose clock runs. Its hearths see the new number, an alarm that has not fired is discarded,
EPST.CMT and FSUB.SUBK end, and a hearth in EPWAIT whose target the number has reached goes on, unless an entry has been asked for; the hearths
of other stacks see nothing yet. Where a reblock has taken place, the selectors come with the edge: the stack's bank and latency class switch, and its
crowns and branch buffers are empty. -/
def Sys2Proof.Machine.TickEdgesReachTheStacks : Prop :=
  ∀ (s : State) (k : Fin 8), s.Inv → s.stackRuns k = true → s.ep.started = true → (s.stks[k]).epoch ≠ s.ep.cur →
    ∃ v, exec (.tickEdgeArrival k) s = .next v ∧ (v.stks[k]).epoch = s.ep.cur ∧ (v.stks[k]).edge = s.ep.edge
      ∧ (∀ h : Hid, h.val / 8 ≠ k.val → v.hearth h = s.hearth h)
      ∧ (∀ h : Hid, h.val / 8 = k.val → (v.hearth h).armed = false ∧ ((v.hearth h).rd 0x050).getLsbD 25 = false
        ∧ ((s.stks[k]).due = false → ((s.hearth h).wait ≠ .epwait ∨ (s.hearth h).entry.isSome = true) → v.hearth h =
            (({ s.hearth h with armed := false, cmtEdge := true, frinGot := 0 } : Hearth).wr 0x41C 0).wr 0x050 ((s.hearth h).rd 0x050 &&& 0xFDFFFFFF))
        ∧ ((s.stks[k]).due = true → (s.hearth h).wait ≠ .epwait → (v.hearth h).crown = none ∧ (v.hearth h).btb = [])
        ∧ ((s.hearth h).wait = .epwait → (s.hearth h).run = .running → (s.hearth h).entry = none →
            ((v.hearth h).wait = .none ↔ (s.ep.cur % 2 ^ 24 + 2 ^ 24 - fld ((s.hearth h).rd 0x04C) 0 24) % 2 ^ 24 < 2 ^ 23)))
      ∧ ((s.stks[k]).due = true → (v.stks[k]).due = false ∧ (v.stks[k]).lc = s.lc ∧ (v.stks[k]).patch = []
        ∧ v.bank = s.bank ^^^ BitVec.ofNat 8 (2 ^ k.val))

/-- Tick edges: the epoch they start and their arrival at the stacks. -/
def Obligations.TickEdgesStartEpochsAndReachStacks : Prop := TickEdgesStartEpochs ∧ TickEdgesReachTheStacks

/-- R155, R276, R277: COMMIT. A report on time sets the hearth's bit, records the epoch and queues the copy of its slice; a late one
only counts; the acceptance that comes back sets EPST.CMT unless an edge came before it, and ends the wait; the copy leaves the working copy's content with its header in the fill frame and changes no other byte. -/
def Obligations.CommitsReportAndCopySlices : Prop :=
  (∀ (s : State) (h : Hid) (n : Nat), s.Inv → (s.hearth h).report = some n →
    (s.ep.started = true → n = s.ep.cur → s.td - s.ep.edge ≤ s.ep.edl * 1000 → (s.reg 0x40040000).getLsbD 2 = false →
      ∃ v, exec (.commitReport h) s = .next v ∧ v.ep.ecmt = s.ep.ecmt ||| BitVec.ofNat 64 (2 ^ h.val)
        ∧ v.ep.copies = s.ep.copies ++ [(h, n)] ∧ (v.hearth h).report = none ∧ fld ((v.hearth h).rd 0x050) 0 24 = n % 2 ^ 24
        ∧ ((v.hearth h).rd 0x050).getLsbD 24 = false ∧ v.mem = s.mem ∧ (∀ g, g ≠ h → v.hearth g = s.hearth g))
    ∧ (n ≠ s.ep.cur → ∃ v, exec (.commitReport h) s = .next v ∧ v.ep = s.ep ∧ (v.hearth h).report = none
        ∧ ((v.hearth h).rd 0x050).getLsbD 24 = true ∧ v.reg 0x40040040 = satInc (s.reg 0x40040040)
        ∧ (v.reg 0x40040048).getLsbD 0 = true ∧ v.mem = s.mem))
  ∧ (∀ (s : State) (h : Hid), s.Inv → ((s.hearth h).wait = .commit ∨ (s.hearth h).cmtPend = true) → (s.hearth h).report = none →
    ∃ v, exec (.commitCompletion h) s = .next v ∧ v = s.setHearth h (v.hearth h) ∧ (v.hearth h).cmtPend = false
      ∧ (v.hearth h).wait = (if (s.hearth h).wait = .commit then .none else (s.hearth h).wait)
      ∧ (v.hearth h).rd 0x050 = (if (s.hearth h).cmtPend = true ∧ (s.hearth h).cmtEdge = false then (s.hearth h).rd 0x050 ||| 0x02000000
          else (s.hearth h).rd 0x050))
  ∧ (∀ (s : State) (h : Hid) (n : Nat) (f : Fin 3), s.Inv → s.ep.gate = true → s.ep.copies.find? (fun c => c.1.val / 8 == h.val / 8) = some (h, n) →
    (s.ep.maps[h]).fill = some f → s.xb.busy[(3 : Fin 19)] = none →
    ∃ v, exec (.sliceCopy h) s = .next v ∧ v.hearths = s.hearths ∧ v.ep.copies = s.ep.copies.filter (fun c => c != (h, n))
      ∧ (∀ i < 0xFF0, v.byte (frameKey f h (0x10 + i)) = s.byte (draftKey h (0x10 + i)))
      ∧ v.rd32 (frameKey f h 0) = BitVec.ofNat 32 n
      ∧ v.rd32 (frameKey f h 4) = BitVec.ofNat 32 (n / 2 ^ 32 % 2 ^ 16 + 2 ^ 16 + h.val * 2 ^ 24)
      ∧ (∀ a, (a < frameKey f h 0 ∨ frameKey f h 0 + 0x1000 ≤ a) → v.byte a = s.byte a))

/-- The difference of two counts of 48 bits. -/
def Sys2Proof.Machine.diff48 (a b : Nat) : Int := (BitVec.ofInt 48 ((a : Int) - b)).toInt

/-- The offset in ns of the four timestamps of an exchange, counts of 0.8 ns. -/
def Sys2Proof.Machine.offsetOf (t1 t2 t3 t4 : Nat) : Int := (diff48 t2 t1 + diff48 t3 t4) * 4 / 10

/-- R284 to R292, R295: the deadlines and the time of a fabric. A held seal whose page is held is applied; EPDL opens the gate,
counting a miss where it was closed, and enters this device as late; FDL enters the children not heard; SDL seals; a member
without a token for four epochs is lost; an exchange starts with its first timestamp and ends with the offset in TDOFF. -/
def Obligations.FabricDeadlinesAndTime : Prop :=
  (∀ (s : State) (x : Seal), s.Inv → s.ep.heldSeal = some x → s.ep.cur = x.epoch + 1 → s.ep.pgC = some x.epoch →
    (∀ h : Hid, ((s.ep.maps[h]).c).isSome = true) →
    ∃ v, exec .sealApply s = .next v ∧ v.ep.heldSeal = none ∧ v.ep.lastSeal = some x ∧ v.ep.pgS = some x.epoch ∧ v.ep.gate = true
      ∧ (∀ h : Hid, (v.ep.maps[h]).s = (s.ep.maps[h]).c) ∧ (v.reg 0x40040048).getLsbD 1 = true
      ∧ ((v.reg 0x40040048).getLsbD 2 = ((s.reg 0x40040048).getLsbD 2 || !x.list.isEmpty)) ∧ v.mem = s.mem)
  ∧ (∀ (s : State), s.Inv → s.ep.started = true → s.ep.epdlGone = false → s.ep.edl * 1000 ≤ s.td - s.ep.edge →
    ∃ v, exec .epdl s = .next v ∧ v.ep.epdlGone = true ∧ v.ep.gate = true ∧ v.mem = s.mem ∧ v.ep.cur = s.ep.cur
      ∧ (s.ep.gate = false → (v.reg 0x40040048).getLsbD 3 = true ∧ v.reg 0x4004005C = satInc (s.reg 0x4004005C))
      ∧ (∀ d r, s.ep.dec = d :: r → d.epoch = s.ep.cur → d.own = none → d.ents = [] → (s.reg 0x40040000).getLsbD 2 = false →
          v.ep.dec.head? = some { d with own := some false, ents := [⟨s.nodeId, false, true⟩] }))
  ∧ (∀ (s : State) (d : EpDec), s.ep.dec = [d] → d.fdlGone = false → d.edge + d.fdl ≤ s.td → d.ents = [] → d.own = none →
    d.tree = 0x10 → d.acked = [] →
    ∃ v, exec .fdl s = .next v ∧ v.ep.dec = [{ d with
        fdlGone := true
        ents := [⟨BitVec.ofNat 14 (fld (s.reg 0x40080048) 0 14), true, false⟩] }] ∧ v.mem = s.mem ∧ v.hearths = s.hearths)
  ∧ (∀ (s : State) (d : EpDec), s.Inv → s.ep.dec = [d] → (s.reg 0x40040000).getLsbD 1 = true → (s.reg 0x40040000).getLsbD 2 = true →
    d.sealed = false → d.fdlGone = true → d.edge + d.sdl ≤ s.td → d.epoch = s.ep.cur →
    ∃ v, exec .sdl s = .next v ∧ v.ep.dec = [{ d with sealed := true }] ∧ v.ep.heldSeal = some ⟨d.epoch, d.ents, d.ovf⟩ ∧ v.mem = s.mem)
  ∧ (∀ (s : State), s.Inv → (s.reg 0x40040000).getLsbD 1 = false → (s.reg 0x40040000).getLsbD 2 = true → s.ep.started = true →
    4 ≤ s.ep.noToken → s.ep.mlost = false →
    ∃ v, exec .mlost s = .next v ∧ v.ep = { s.ep with mlost := true } ∧ (v.reg 0x40040048).getLsbD 5 = true ∧ v.mem = s.mem)
  ∧ (∀ (s : State) (p : Fin 4), s.Inv → (s.reg 0x40040000).getLsbD 1 = false → (s.reg 0x40040000).getLsbD 2 = true →
    fld s.ep.tree 0 3 = p.val → s.portState p = 4 →
    (s.lk.ports[p].stamps = [] → ∃ v, exec (.timeExchange p) s = .next v ∧ v.lk.ports[p].stamps = [s.td * 5 / 4 % 2 ^ 48]
        ∧ v.lk.ports[p].ctlOut = s.lk.ports[p].ctlOut ++ [ctlWord 5 (s.td * 5 / 4 % 2 ^ 48)] ∧ v.mem = s.mem ∧ v.regs = s.regs)
    ∧ (∀ t1 t2 t3 t4, s.lk.ports[p].stamps = [t1, t2, t3, t4] → ∃ v, exec (.timeExchange p) s = .next v
        ∧ v.lk.ports[p].stamps = [] ∧ v.mem = s.mem
        ∧ (v.reg 0x40040078).toInt = max (-(2 ^ 31 - 1)) (min (2 ^ 31 - 1) (offsetOf t1 t2 t3 t4))
        ∧ (500 < (offsetOf t1 t2 t3 t4).natAbs → v.ep.lockN = 0)
        ∧ (50000 < (offsetOf t1 t2 t3 t4).natAbs → v.ep.step = some (offsetOf t1 t2 t3 t4))))

/-! ## The damper (11) -/

/-- Cause `b` latched in the outputs of `scope` and no others: each of them has its mask bit, those that had not have their
pads off, and memory is as before; DCAUSE shows it. -/
def Sys2Proof.Machine.Latched (s v : State) (b : Nat) (scope : Fin 96 → Bool) : Prop :=
  (∀ o : Fin 96, (v.dm.out[o]).mask = (if scope o then (s.dm.out[o]).mask ||| BitVec.ofNat 16 (2 ^ b) else (s.dm.out[o]).mask)
      ∧ (scope o = true → (s.dm.out[o]).mask.getLsbD b = false → (v.dm.out[o]).win = none)
      ∧ (scope o = false → v.dm.out[o] = s.dm.out[o]))
    ∧ ((∃ o, scope o = true ∧ (s.dm.out[o]).mask.getLsbD b = false) → (v.reg 0x40050008).getLsbD b = true) ∧ v.mem = s.mem

/-- R309 to R314, Table DF-4: the causes. QUENCH_N low quenches every output, and the cause lasts until the pin has been high
for 10 us; a phase above ILIM for more than 25 damper cycles, a group beyond its energy, an output beyond MAXON, a raw code
outside the limits of its enabled channel or no code for two of its periods quench their scopes; DQSET latches SW. A second
code in a row within the limits ends the condition of its channel without clearing a mask. -/
def Sys2Proof.Machine.CausesQuenchTheirOutputs : Prop :=
  (∀ s : State, s.Inv → ∃ v, exec .quenchN s = .next v ∧ Latched s v 0 (fun _ => true) ∧ v.dm.pin = true ∧ v.dm.pinAct = true)
  ∧ (∀ s : State, exec .quenchNHigh s = .next { s with dm := { s.dm with pin := false, pinAt := s.dnow } })
  ∧ (∀ s : State, s.dm.pin = false → s.dm.pinAt + 10000 ≤ s.dnow → exec .pinCauseGone s = .next { s with dm := { s.dm with pinAct := false } })
  ∧ (∀ s : State, s.dm.bow = false → s.dm.bowAt + 100000 ≤ s.dnow → exec .bowCauseGone s = .next { s with dm := { s.dm with bowAct := false } })
  ∧ (∀ (s : State) (p : Fin 3) (t : Nat), s.Inv → (s.dm.ph[p]).ovl = some t → t + 1000 < s.dnow →
    ∃ v, exec (.phase p) s = .next v ∧ Latched s v 3 (fun o => s.oPhase o == p.val) ∧ v.dm.phAct.getLsbD p.val = true)
  ∧ (∀ (s : State) (g : Fin 16), s.Inv → s.ewin g ≠ 0 → s.ebud g * 1000 < s.groupEn g / 10000000 →
    ∃ v, exec (.group g) s = .next v ∧ Latched s v 4 (fun o => s.oGroup o == g) ∧ v.dm.grp.getLsbD g.val = true)
  ∧ (∀ (s : State) (g : Fin 16), s.ewin g ≠ 0 → s.dm.gwin[g] + s.ewin g * 1000000000 ≤ s.dnow →
    ∃ v, exec (.groupWindowEnd g) s = .next v ∧ v = { s with dm := { s.dm with
        en := v.dm.en, base := s.dnow, gwin := s.dm.gwin.set g (s.dm.gwin[g] + s.ewin g * 1000000000), grp := v.dm.grp } }
      ∧ v.dm.en[g] = 0 ∧ v.dm.grp.getLsbD g.val = false)
  ∧ (∀ (s : State) (o : Fin 96) (m : Nat), s.Inv → s.oMode o ≠ 0 → s.maxon o = some m → m < s.con o → (s.dm.out[o]).mask = 0 →
    ∃ v, exec (.out o) s = .next v ∧ (v.dm.out[o]).mask = 2 ∧ (v.dm.out[o]).win = none ∧ v.mem = s.mem
      ∧ v.reg 0x40050044 = BitVec.ofNat 32 (o.val + 0x100) ||| 0x80000000 ∧ ∀ q, q ≠ o → v.dm.out[q] = s.dm.out[q])
  ∧ (∀ (s : State) (c : Fin 48) (x : BitVec 24) (a b : List (Fin 48 × BitVec 24)), s.Inv → s.afe.sent = a ++ (c, x) :: b → (∀ y ∈ a, y.1 ≠ c) →
    s.chEn c = true →
    (x.toInt < s.chLo c ∨ s.chHi c < x.toInt → ∃ v, exec (.rawCode c) s = .next v ∧ v.afe.sent = a ++ b ∧ v.dm.ch.getLsbD c.val = true
        ∧ Latched s v 2 (fun o => (s.chGroups c).getLsbD (s.oGroup o).val))
    ∧ (s.chLo c ≤ x.toInt → x.toInt ≤ s.chHi c → s.dm.good.getLsbD c.val = true → ∃ v, exec (.rawCode c) s = .next v ∧ v.afe.sent = a ++ b
        ∧ v.dm.ch.getLsbD c.val = false ∧ v.dm.out = s.dm.out ∧ v.mem = s.mem))
  ∧ (∀ (s : State) (c : Fin 48), s.Inv → s.chEn c = true → (∀ d : Fin 48, (s.afe.ch[d]).wr = none) →
    s.dm.chAt[c] + 2 * Int.ofNat (s.chPeriod c) ≤ Int.ofNat s.dnow →
    ∃ v, exec (.codeAbsence c) s = .next v ∧ v.dm.ch.getLsbD c.val = true ∧ Latched s v 2 (fun o => (s.chGroups c).getLsbD (s.oGroup o).val))
  ∧ (∀ (s : State) (w : Who) (k : Fin 3) (x : Word), s.Inv → s.ReachesGs w (0x40050020 + 4 * k.val) → (s.carried w).hearth.isSome = true →
    ∃ v, exec (.dqset w k x) s = .next v ∧ v.xb.ans = (0, []) ∧ Latched s v 15 (fun o => o.val / 32 == k.val && x.getLsbD (o.val % 32)))

/-- R315 to R317: DQCLR clears, of the outputs named, the bits whose cause is gone and which did not latch in the same damper cycle; an output left without one starts over at
32,768 and is off; DQDEN shows what stayed. DRQTX sends the mask and the next number to every port that is UP. -/
def Sys2Proof.Machine.QuenchesAreClearedAndSent : Prop :=
  (∀ (s : State) (w : Who) (k : Fin 3) (x : Word), s.Inv → s.ReachesGs w (0x40050030 + 4 * k.val) → (s.carried w).hearth.isSome = true →
    ∃ v, exec (.dqclr w k x) s = .next v ∧ v.xb.ans = (0, []) ∧ v.mem = s.mem ∧ v.hearths = s.hearths
      ∧ (∀ o : Fin 96, o.val / 32 = k.val → x.getLsbD (o.val % 32) = true → (s.dm.out[o]).mask ≠ 0 →
          (v.dm.out[o]).mask = (s.dm.out[o]).mask &&& (s.activeMask o ||| (if (s.dm.out[o]).lat.1 = s.dnow / 40 then (s.dm.out[o]).lat.2 else 0)) ∧ (v.dm.out[o]).win = (s.dm.out[o]).win
          ∧ ((v.dm.out[o]).mask = 0 → (v.dm.out[o]).e = 32768))
      ∧ (∀ o : Fin 96, (o.val / 32 ≠ k.val ∨ x.getLsbD (o.val % 32) = false) → v.dm.out[o] = s.dm.out[o])
      ∧ ((∀ o : Fin 96, o.val / 32 = k.val → x.getLsbD (o.val % 32) = true → (s.dm.out[o]).mask &&& s.activeMask o = 0) → v.reg 0x40050040 = 0))
  ∧ (∀ (s : State) (w : Who) (x : Word) (p : Fin 4), s.ReachesGs w 0x40050060 → (s.carried w).hearth.isSome = true → s.portState p = 4 →
    s.lk.ports[p].queue = [] → s.lk.ports[p].replay.length < 64 → s.lk.ports[p].busy ≤ s.now →
    ∃ v f, exec (.drqtx w x) s = .next v ∧ v.lk.rqSeq = (s.lk.rqSeq + 1) % 256 ∧ v.mem = s.mem ∧ v.hearths = s.hearths
      ∧ v.lk.ports[p].replay = s.lk.ports[p].replay ++ [⟨f, s.now, 0⟩] ∧ f.type = 0x10 ∧ f.lseq = s.lk.ports[p].tx ∧ f.src = s.nodeId
      ∧ f.payload = [BitVec.ofNat 32 (fld x 0 16 + s.lk.rqSeq % 256 * 65536)])

/-- The causes of quench, their clearing and the quench that is sent. -/
def Obligations.QuenchCausesLatchAndClear : Prop := CausesQuenchTheirOutputs ∧ QuenchesAreClearedAndSent

/-- The edit status after a rejection: STAT.REJ with its reason, not armed. -/
def Sys2Proof.Machine.Rejected (s v : State) (why : Nat) : Prop :=
  v.dm.key = none ∧ (v.reg 0x40050054).getLsbD 0 = false ∧ (v.reg 0x40050054).getLsbD 2 = true ∧ fld (v.reg 0x40050054) 4 3 = why
    ∧ v.mem = s.mem ∧ v.hearths = s.hearths ∧ v.dm.out = s.dm.out

/-- R307: the two keys of an edit come from two hearths in GS, the second within 1 ms: the first is kept, the second arms where
the set with the staged words is valid; the same hearth, an invalid set, and no second key in time are rejected with their reasons. -/
def Obligations.TwoKeysArmAnEdit : Prop :=
  (∀ (s : State) (w : Who) (h : Hid), s.Inv → s.ReachesGs w 0x40050050 → (s.carried w).hearth = some h → (s.reg 0x40050054).getLsbD 0 = false →
    (s.dm.key = none → Accepted (.firstKey w 0x6D) s { s with dm := { s.dm with key := some (h, s.dnow) } })
    ∧ (∀ (k : Hid) (t : Nat), s.dm.key = some (k, t) → s.dnow ≤ t + 1000000 →
        (k ≠ h → s.editOk = true → ∃ v, exec (.secondKey w 0x92) s = .next v ∧ v.dm.key = none ∧ (v.reg 0x40050054).getLsbD 0 = true
            ∧ v.mem = s.mem ∧ v.hearths = s.hearths ∧ v.dm.out = s.dm.out)
        ∧ (k ≠ h → s.editOk = false → ∃ v, exec (.secondKey w 0x92) s = .next v ∧ Rejected s v 3)
        ∧ (k = h → ∃ v, exec (.secondKey w 0x92) s = .next v ∧ Rejected s v 1)))
  ∧ (∀ (s : State) (h : Hid) (t : Nat), s.Inv → s.dm.key = some (h, t) → t + 1000000 ≤ s.dnow →
    ∃ v, exec .keyTimeout s = .next v ∧ Rejected s v 2)

/-- R320 to R324: a demand is drafted by the hearth that owns the output, before its on-time COMMIT; the vector makes the drafts
of committed owners live and ages the others; each missed tick ages all. -/
def Obligations.DemandsFollowTheVector : Prop :=
  (∀ (s : State) (w : Who) (o : Fin 96) (x : Word), s.Inv → s.Reaches w (0x40060100 + 4 * o.val) true →
    ((s.carried w).hearth = some (s.oOwner o) → w.master.val = 1 + (s.oOwner o).val / 8 → s.ep.ecmt.getLsbD (s.oOwner o).val = false →
      Accepted (.fdemWrite w o x) s { s with dm := { s.dm with out := s.dm.out.set o { s.dm.out[o] with draft := x.setWidth 16 } } })
    ∧ ((s.carried w).hearth ≠ some (s.oOwner o) → ∃ v, exec (.fdemWrite w o x) s = .next v ∧ v.xb.ans = (2, []) ∧ v.dm = s.dm
        ∧ (v.reg 0x40060024).getLsbD 31 = true ∧ v.mem = s.mem)
    ∧ ((s.carried w).hearth = some (s.oOwner o) → w.master.val = 1 + (s.oOwner o).val / 8 → s.ep.ecmt.getLsbD (s.oOwner o).val = true →
      ∃ v, exec (.fdemWrite w o x) s = .next v ∧ v.xb.ans = (5, []) ∧ v.dm = s.dm ∧ v.mem = s.mem))
  ∧ (∀ (s : State) (m : Vec), s.dm.vec = some m → m.swap = false → (s.reg 0x40050054).getLsbD 0 = false →
    ∃ v, exec .ecmtVector s = .next v ∧ v.mem = s.mem ∧ v.dm.vec = none ∧ v.dm.last = some (s.dnow, m.per)
      ∧ ∀ o : Fin 96, (m.ecmt.getLsbD (s.oOwner o).val = true → (v.dm.out[o]).live = (s.dm.out[o]).draft ∧ (v.dm.out[o]).age = 0)
        ∧ (m.ecmt.getLsbD (s.oOwner o).val = false → (v.dm.out[o]).draft = (s.dm.out[o]).live ∧ (v.dm.out[o]).live = (s.dm.out[o]).live
            ∧ (v.dm.out[o]).age = min 255 ((s.dm.out[o]).age + 1)))
  ∧ (∀ (s : State) (t p : Nat), s.dm.last = some (t, p) → t + 3 * p / 2 + s.dm.ticks * p ≤ s.dnow →
    ∃ v, exec .damperTick s = .next v ∧ v.mem = s.mem ∧ v.dm.ticks = s.dm.ticks + 1
      ∧ ∀ o : Fin 96, (v.dm.out[o]).age = min 255 ((s.dm.out[o]).age + 1) ∧ (v.dm.out[o]).live = (s.dm.out[o]).live)

/-! ## The firing scheduler (11) -/

/-- Output `o` with its accumulator `x` decided: it fires and pays, or does not. -/
def Sys2Proof.Machine.decided (q : Outp) (x : Int) (fire : Bool) (frame : Bool) : Outp :=
  { q with e := if fire then x - 65535 else x, prev := q.fire, fire := fire, cnt := if fire && frame then q.cnt + 1 else q.cnt }

/-- The predicted crossing after the last accepted edge of a phase (R325). -/
def Sys2Proof.Machine.State.nextZk (s : State) (p : Fin 3) : Nat := (s.dm.ph[p]).edges.headD 0 + (s.dm.ph[p]).half

/-- R325 to R327: an edge near its prediction is accepted, one far from it is not, and without one for 1.25 half-cycles the
phase is lost; a decision adds each live demand to the accumulator, at most 131,070, and fires the output, for 65,535, where the
accumulator reaches it and limits and load allow; level pads follow the decision from Zk - LEAD on, pulse pads are on from Zk + PDLY for PW; a decision before Zk - LEAD - 20 us is none. -/
def Obligations.PhasesDecideAndFire : Prop :=
  (∀ (s : State) (p : Fin 3) (x : PhaseSt) (a : Nat) (r : List Nat), x = s.dm.ph[p] → x.run = true → x.edges = a :: r →
    ((max s.dnow (a + x.half) - min s.dnow (a + x.half)) * 10 ≤ x.half → ∃ v, exec (.zeroCrossing p) s = .next v ∧ v = { s with dm := v.dm, regs := v.regs }
      ∧ v.dm = { s.dm with ph := s.dm.ph.set p { x with edges := s.dnow :: x.edges.take 8 } })
    ∧ (x.half < (max s.dnow (a + x.half) - min s.dnow (a + x.half)) * 10 → exec (.zeroCrossing p) s = .next s)
    ∧ (a * 32 + x.sum8 * 5 ≤ s.dnow * 32 → s.Inv → ∃ v, exec (.phaseLost p) s = .next v ∧ (v.dm.ph[p]).run = false ∧ (v.dm.ph[p]).lost = true ∧ (v.dm.ph[p]).rel = some (a + 2 * x.half - s.lead)
        ∧ (v.reg 0x40060010).getLsbD 0 = true ∧ v.mem = s.mem ∧ v.dm.out = s.dm.out))
  ∧ (∀ (s : State) (p : Fin 3), s.dnow < s.nextZk p - s.lead - 20000 → exec (.halfCycleDecision p) s = .next s)
  ∧ (∀ (s : State) (p : Fin 3) (o : Fin 96) (x : Int) (t : Nat), (s.dm.ph[p]).run = true → (s.dm.ph[p]).stage = 0 → s.phOuts p = [o] →
    t = s.nextZk p - s.lead - 20000 → t ≤ s.dnow → (s.dm.ph[p]).zk < s.nextZk p →
    (s.dm.out[o]).mask = 0 → fld (s.reg 0x40060000) 0 8 = 0 → fld (s.reg 0x40060008) 0 16 = 0 → x = min ((s.dm.out[o]).e + (s.dm.out[o]).live.toNat) 131070 →
    (x < 65535 → ∃ v, exec (.halfCycleDecision p) s = .next v ∧ v = { s with dm := v.dm }
        ∧ v.dm.out = s.dm.out.set o (decided s.dm.out[o] x false false) ∧ (v.dm.ph[p]).stage = 1 ∧ (v.dm.ph[p]).zk = s.nextZk p)
    ∧ (65535 ≤ x → s.allowed o (s.dm.ph[p]).half t ((s.dm.out[o]).onAt' t) = true → (s.ilim p = 0xFFFF ∨ s.inom o ≤ s.ilim p) →
        ∃ v, exec (.halfCycleDecision p) s = .next v ∧ v = { s with dm := v.dm }
          ∧ v.dm.out = s.dm.out.set o (decided s.dm.out[o] x true false) ∧ (v.dm.ph[p]).stage = 1)
    ∧ (65535 ≤ x → s.allowed o (s.dm.ph[p]).half t ((s.dm.out[o]).onAt' t) = false →
        ∃ v, exec (.halfCycleDecision p) s = .next v ∧ v.mem = s.mem ∧ v.dm.out = s.dm.out.set o (decided s.dm.out[o] x false false)))
  ∧ (∀ (s : State) (p : Fin 3) (o : Fin 96), s.oPhase o = p.val → (s.dm.out[o]).mask = 0 → (s.dm.out[o]).win = none → (s.dm.out[o]).fire = true →
    ((s.dm.ph[p]).stage = 1 → (s.dm.ph[p]).zk - s.lead ≤ s.dnow → s.oMode o = 1 → ∃ v, exec (.halfCycleBoundary p) s = .next v ∧ v.mem = s.mem
        ∧ (v.dm.out[o]).win = some ((s.dm.ph[p]).zk - s.lead, none) ∧ (v.dm.ph[p]).stage = 2)
    ∧ ((s.dm.ph[p]).stage = 2 → (s.dm.ph[p]).zk + s.pdly ≤ s.dnow → s.oMode o = 2 → (s.dm.out[o]).clr = none →
        ∃ v, exec (.halfCycleBoundary p) s = .next v ∧ v.mem = s.mem
          ∧ (v.dm.out[o]).win = some ((s.dm.ph[p]).zk + s.pdly, some ((s.dm.ph[p]).zk + s.pdly + s.pulse)) ∧ (v.dm.ph[p]).stage = 3))
  ∧ (∀ (s : State) (p : Fin 3) (o : Fin 96), s.oPhase o = p.val → (s.dm.ph[p]).stage = 3 → (s.dm.ph[p]).zk + s.pdly + s.pulse ≤ s.dnow → s.oMode o = 2 →
    ∃ v, exec (.halfCycleBoundary p) s = .next v ∧ v.mem = s.mem ∧ (v.dm.out[o]).win = none ∧ (v.dm.ph[p]).stage = 0)
  ∧ (∀ (s : State) (p : Fin 3) (o : Fin 96) (t : Nat), s.oPhase o = p.val → (s.dm.ph[p]).stage = 0 → (s.dm.ph[p]).rel = some t → t ≤ s.dnow → s.oMode o = 1 →
    ∃ v, exec (.halfCycleBoundary p) s = .next v ∧ v.mem = s.mem ∧ (v.dm.out[o]).win = none ∧ (v.dm.out[o]).fire = false ∧ (v.dm.ph[p]).rel = none)

/-- R329, R331: an independent PWM pair turns on each of its outputs for floor((D x PER + 32,767) / 65,535) counts of 40 ns,
where its limits allow; a current transformer whose channel reads more than its tolerance while none of its outputs fired, CTN
half-cycles in a row, is stuck on, and with CTTRIP quenches its groups. -/
def Obligations.PwmPairsAndCurrentTransformers : Prop :=
  (∀ (s : State) (k : Fin 8) (o : Fin 96) (per on : Nat), o.val = 80 + 2 * k.val ∨ o.val = 81 + 2 * k.val → s.dm.bk = false →
    per = fld (s.reg (0x40060040 + 4 * k.val)) 0 16 → per ≠ 0 → (s.reg (0x40060040 + 4 * k.val)).getLsbD 24 = true → s.oMode o = 3 →
    (s.dm.out[o]).mask = 0 → on = ((s.dm.out[o]).live.toNat * per + 32767) / 65535 →
    (on ≠ 0 → s.allowed o (on * 40) s.dnow (s.dm.out[o]).en.isSome = true → ∃ v, exec (.pwmPeriod k) s = .next v ∧ v.mem = s.mem
        ∧ (v.dm.out[o]).win = some (s.dnow, some (s.dnow + 40 * on)) ∧ (v.dm.out[o]).en.isSome = true)
    ∧ (on = 0 → ∃ v, exec (.pwmPeriod k) s = .next v ∧ v.mem = s.mem ∧ (v.dm.out[o]).win = none ∧ (v.dm.out[o]).en = none))
  ∧ (∀ (s : State) (j : Fin 12) (x : CtSt), s.Inv → x = s.dm.ct[j] → s.ctfs j ≠ 0 → x.n ≠ 0 → s.ctExpected j = 0 →
    (s.ctMin j * s.cttol) ^ 2 * (x.n * 2 ^ 30) < s.ctfs j ^ 2 * x.sq * 10000 →
    ∃ v, exec (.ctHalfCycle j) s = .next v ∧ v.mem = s.mem ∧ (v.dm.ct[j]).n = 0 ∧ (v.dm.ct[j]).sq = 0 ∧ (v.dm.ct[j]).stuck = min 15 (x.stuck + 1)
      ∧ (s.ctn ≤ min 15 (x.stuck + 1) → (v.reg 0x40060060).getLsbD (16 + j.val) = true ∧ (v.reg 0x40060010).getLsbD 6 = true
          ∧ (s.cttrip = true → s.ctn ≠ 0 → (v.dm.ct[j]).act = true ∧ Latched s v 5 (fun o => s.ctGroups j (s.oGroup o)))))

/-! ## The bellows (14) -/

/-- The request of engine `e` for chunk `c` stands at the crossbar behind the others, with the next number. -/
def Sys2Proof.Machine.State.belAsks (s v : State) (e : Fin 2) (c n : Nat) (a : Nat) (op : XOp) : Prop :=
  ∃ tg, targetOf s.remap a = some tg ∧ v.xb = { s.xb with reqs := s.xb.reqs ++ [⟨n, s.belWho e, tg, a, op, s.now, false, s.remap, .bel e c, none⟩] }

/-- R403 to R408: a chain. GO starts an idle engine at BNEXT and ABORT gives a busy one ERRC 6; a good descriptor in system SRAM
is fetched, waits for the edge with EPW, or asks for its first chunk at once, and one with a reserved bit stops with ERRC 5; the
edge starts a waiting one; a chunk that was read is written to DST, a written one counts down BCNT; a finished descriptor counts,
raises line 12 with IRQ and goes on with NEXT or idles; a failed engine stops with its code and line 12. -/
def Obligations.BellowsRunTheirChains : Prop :=
  ∀ (s : State) (e : Fin 2) (b : Bel) (w : Who), s.Inv → b = s.bel[e] →
    (s.ReachesGs w (0x400A0008 + 0x40 * e.val) → b.phase = .idle → ∃ v, exec (.go w e) s = .next v ∧ v.xb.ans = (0, []) ∧ v.mem = s.mem
      ∧ v.bel = s.bel.set e ⟨.fetch, [], 0, [], 0⟩ ∧ v.reg (0x400A0010 + 0x40 * e.val) = s.reg (0x400A0004 + 0x40 * e.val) ∧ v.hearths = s.hearths)
    ∧ (s.ReachesGs w (0x400A0008 + 0x40 * e.val) → b.phase ≠ .idle → b.err = 0 →
      Accepted (.abort w e) s { s with bel := s.bel.set e { b with err := 6 } })
    ∧ (∀ (a len : Nat) (d : List Word), b = ⟨.fetch, [], 0, [], 0⟩ → a = (s.reg (0x400A0010 + 0x40 * e.val)).toNat → 0x10000000 ≤ a → a + 32 ≤ 0x10200000 →
      a % 32 = 0 → s.targetOff 0 = false → s.Open 0 → s.pw.ask = none → d = (List.range 8).map (fun i => s.rd32 (a + 4 * i)) → len = fld (s.rd32 (a + 12)) 0 24 →
      (s.rd32 (a + 28) ≠ 0 → ∃ v, exec (.descriptorFetch e) s = .next v ∧ (v.bel[e]).err = 5 ∧ v.mem = s.mem)
      ∧ (s.descBad e ⟨.run, d, 0, [], 0⟩ = false → (s.rd32 (a + 16)).getLsbD 6 = true →
          ∃ v, exec (.descriptorFetch e) s = .next v ∧ v.bel = s.bel.set e ⟨.epw, d, 0, [], 0⟩ ∧ v.mem = s.mem
            ∧ v.reg (0x400A0014 + 0x40 * e.val) = BitVec.ofNat 32 len)
      ∧ (s.descBad e ⟨.run, d, 0, [], 0⟩ = false → fld (s.rd32 (a + 16)) 4 3 = 0 → 0 < len → (s.rd32 a).toNat % 256 + len ≤ 256 →
          (s.rd32 (a + 4)).toNat % 256 + len ≤ 256 → fld (s.rd32 (a + 8)) 0 14 = 0x3FFF → s.lk.tags = [] → s.lk.wait = [] →
          targetOf s.remap (s.rd32 a).toNat ≠ none →
          ∃ v, exec (.descriptorFetch e) s = .next v ∧ v.mem = s.mem
            ∧ v.bel = s.bel.set e ⟨.run, d, len, [⟨s.nextId + 1, 0, len, true, [], some 0, none⟩], 0⟩
            ∧ s.belAsks v e (s.nextId + 1) (s.nextId + 2) (s.rd32 a).toNat (.read len)))
    ∧ (b.phase = .due → ∃ v, exec (.epwStart e) s = .next v ∧ (v.bel[e]).phase = .run ∧ (v.bel[e]).desc = b.desc ∧ v.mem = s.mem
      ∧ fld (v.reg (0x400A000C + 0x40 * e.val)) 16 16 = fld (b.desc.getD 6 0) 0 16)
    ∧ (∀ (c : Chunk) (bs : List Byte) (t u : Nat), b.phase = .run → b.err = 0 → b.issued = fld (b.desc.getD 3 0) 0 24 → b.chunks = [c] → c.tag = some t →
      c.answer = some (some bs, 0) → s.lk.tags = [(t, .bel e c.id, u)] → s.lk.wait = [] → fld (b.desc.getD 4 0) 0 2 = 0 →
      (c.reads = true → fld (b.desc.getD 4 0) 4 2 = 0 → fld (b.desc.getD 2 0) 16 14 = 0x3FFF → c.len = bs.length →
        targetOf s.remap ((b.desc.getD 1 0).toNat + c.off) ≠ none →
        ∃ v, exec (.chunkCompletion e) s = .next v ∧ v.mem = s.mem
          ∧ v.bel = s.bel.set e { b with chunks := [⟨c.id, c.off, c.len, false, bs, some 0, none⟩] }
          ∧ s.belAsks v e c.id (s.nextId + 1) ((b.desc.getD 1 0).toNat + c.off) (.write bs))
      ∧ (c.reads = false → ∃ v, exec (.chunkCompletion e) s = .next v ∧ v.mem = s.mem ∧ v.bel = s.bel.set e { b with chunks := [] }
          ∧ v.lk.tags = [] ∧ v.reg (0x400A0014 + 0x40 * e.val)
            = BitVec.ofNat 32 ((s.reg (0x400A0014 + 0x40 * e.val)).toNat - c.data.length)))
    ∧ (b.phase = .run → b.err = 0 → b.chunks = [] → b.desc ≠ [] → b.issued = fld (b.desc.getD 3 0) 0 24 →
      ∃ v, exec (.descriptorDone e) s = .next v ∧ v.mem = s.mem
        ∧ v.reg (0x400A0018 + 0x40 * e.val) = satInc (s.reg (0x400A0018 + 0x40 * e.val))
        ∧ ((b.desc.getD 4 0).getLsbD 7 = true → (v.reg (0x400A000C + 0x40 * e.val)).getLsbD 1 = true ∧ ∀ h, (v.hearth h).icpend.getLsbD 12 = true)
        ∧ (fld (b.desc.getD 5 0) 5 27 = 0 → v.bel = s.bel.set e ⟨.idle, [], 0, [], 0⟩)
        ∧ (fld (b.desc.getD 5 0) 5 27 ≠ 0 → v.bel = s.bel.set e ⟨.fetch, [], 0, [], 0⟩
            ∧ v.reg (0x400A0010 + 0x40 * e.val) = BitVec.ofNat 32 (fld (b.desc.getD 5 0) 5 27 * 32)))
    ∧ (b.phase ≠ .idle → b.err ≠ 0 → b.err < 8 → b.chunks = [] → ∃ v, exec (.bellowsError e) s = .next v ∧ v.mem = s.mem
      ∧ v.bel = s.bel.set e ⟨.idle, [], 0, [], 0⟩ ∧ (v.reg (0x400A000C + 0x40 * e.val)).getLsbD 2 = true
      ∧ fld (v.reg (0x400A000C + 0x40 * e.val)) 4 3 = b.err ∧ ∀ h, (v.hearth h).icpend.getLsbD 12 = true)

/-! ## The measurement front end (15) -/

/-- The code of a raw code `raw` in mode `m` with gain `g` and offset `o` (R414). -/
def Sys2Proof.Machine.calibrated (m : Nat) (g o raw : Int) : Int :=
  max (-(2 ^ 23)) (min (2 ^ 23 - 1) (((((raw - o) * g + 2 ^ 21) / 2 ^ 22)
    * (if m = 1 then 4000000 else if m = 2 then 200000 else 2000000) + 2 ^ 21) / 2 ^ 22))

/-- No written setting waits for its slot. -/
def Sys2Proof.Machine.State.Settled (s : State) : Prop := ∀ c : Fin 48, (s.afe.ch[c]).wr = none

/-- R409, R411 to R414, R416, R419, R423: a conversion of an enabled channel leaves the calibrated value, by the channel's
calibration where it was made in its mode, and its raw code on the way to the damper; a new setting acts from its slot and
discards what was there; a cold junction adds its offset; a CT sample is summed for the firing scheduler; a write of ACHn waits
for its slot; a converter takes its new rate, and the periods without a code that the damper has counted stand. -/
def Sys2Proof.Machine.ConversionsGiveCalibratedValues : Prop :=
  (∀ (s : State) (c : Fin 48) (code : BitVec 24) (x : AfeCh) (m : Nat), s.Inv → s.converts = true → x = s.afe.ch[c] → s.Settled →
    m = fld x.cfg 0 3 → m ≠ 0 → x.skip = false → x.isOpen = false → -8388607 < code.toInt → code.toInt < 8388607 →
    ∃ v, exec (.conversion c code false) s = .next v ∧ v.mem = s.mem ∧ v.hearths.map (fun h => h.g) = s.hearths.map (fun h => h.g)
      ∧ v.reg (0x40070400 + 4 * c.val) = code.signExtend 32 ∧ v.afe.sent = s.afe.sent ++ [(c, code)]
      ∧ v.afe.ch = s.afe.ch.set c { x with
          v := true, last := s.now, ovr := false, run := 0
          val := BitVec.ofInt 24 (if fld (s.reg (0x40070204 + 8 * c.val)) 24 3 = m then
              calibrated m (fld (s.reg (0x40070200 + 8 * c.val)) 0 24) (((s.reg (0x40070204 + 8 * c.val)).setWidth 24).toInt) code.toInt
            else calibrated m (2 ^ 22) 0 code.toInt) })
  ∧ (∀ (s : State) (c : Fin 48) (code : BitVec 24) (l : Bool) (x : AfeCh) (t : Nat), s.converts = true → x = s.afe.ch[c] → x.wr = some t →
    (∀ d, d ≠ c → (s.afe.ch[d]).wr = none) → fld (s.reg (0x40070100 + 4 * c.val)) 0 3 ≠ 0 → t ≤ s.now - s.chPeriod c / 6 →
    ∃ v, exec (.conversion c code l) s = .next v
      ∧ v = { s with afe := { s.afe with ch := s.afe.ch.set c { x with
          cfg := s.reg (0x40070100 + 4 * c.val), wr := none, v := false, skip := false, last := s.now, isOpen := false, run := 0 } }, dm := v.dm }
      ∧ v.dm = { s.dm with chAt := v.dm.chAt } ∧ (threeWire x.cfg = threeWire (s.reg (0x40070100 + 4 * c.val)) → v.dm = s.dm))
  ∧ (∀ (s : State) (k : Fin 3) (code : Half) (z : Int), s.converts = true → (k = 0 ∨ (s.reg 0x40070040).getLsbD k.val = true) →
    z = code.toNat + (((if k = 0 then s.reg 0x40070044 else if k = 1 then s.reg 0x40070044 >>> 16 else s.reg 0x40070048).setWidth 16).toInt) →
    0 ≤ z → z < 2 ^ 16 → exec (.cjConversion k code false) s = .next { s with
      afe := { s.afe with cj := s.afe.cj.set k ⟨true, s.now, BitVec.ofInt 16 z, false⟩ }, free := s.free + 1 })
  ∧ (∀ (s : State) (j : Fin 12) (x : BitVec 16), s.converts = true → (s.reg 0x40070060).getLsbD j.val = true → x ≠ 0x7FFF → x ≠ 0x8000 →
    exec (.ctSample j x) s = .next { s with dm := { s.dm with ct := s.dm.ct.set j { s.dm.ct[j] with
      n := (s.dm.ct[j]).n + 1, sq := (s.dm.ct[j]).sq + x.toInt.natAbs ^ 2 } } })
  ∧ (∀ (s : State) (w : Who) (c : Fin 48) (x : Word), s.Inv → s.ReachesGs w (0x40070100 + 4 * c.val) → (s.reg 0x40070000).getLsbD 8 = false → s.Settled →
    fld x 0 3 < 4 → fld x 4 2 < 3 → ∃ v, exec (.achWrite w c x) s = .next v ∧ v.xb.ans = (0, []) ∧ v.mem = s.mem ∧ v.hearths = s.hearths
      ∧ v.reg (0x40070100 + 4 * c.val) = (s.reg (0x40070100 + 4 * c.val) &&& ~~~0x1337) ||| (x &&& 0x1337)
      ∧ v.afe = { s.afe with ch := s.afe.ch.set c { s.afe.ch[c] with wr := some s.now } })
  ∧ (∀ (s : State) (k : Fin 8), s.afeRuns = true → s.Settled → ∃ v, exec (.rateChange k) s = .next v
      ∧ v = { s with afe := { s.afe with rate := s.afe.rate.set k (fld (s.reg (0x40070020 + 4 * k.val)) 0 3) }, dm := { s.dm with chAt := v.dm.chAt } }
      ∧ ∀ c : Fin 48, v.dm.chAt[c] = (if convOf c = k ∧ s.chPeriod c ≠ v.chPeriod c then
          Int.ofNat s.dnow - (Int.ofNat s.dnow - s.dm.chAt[c]) * Int.ofNat (v.chPeriod c) / Int.ofNat (s.chPeriod c) else s.dm.chAt[c]))

/-- R417, 02 R38, Table ME-4: the latch of an edge that has still to reach the front end, whose clocks run, writes the page that ASPCUR does not name, then names it: the epoch number first and last, the
edge's instant, and for a channel a word with its value, V and its flags, or 0 without a value; no other byte changes. Without such an edge nothing happens. -/
def Sys2Proof.Machine.SampleLatchWritesTheOtherPage : Prop :=
  (∀ s : State, s.afe.edge = false ∨ s.afeRuns = false → exec .sampleLatch s = .next s)
  ∧ ∀ (s : State) (base : Nat), s.Inv → s.afe.edge = true → s.afeRuns = true → s.Settled → base = (if s.afe.page then 0x40078000 else 0x40078100) →
    ∃ v, exec .sampleLatch s = .next v ∧ v.afe = { s.afe with page := !s.afe.page, edge := false }
      ∧ v.rd32 base = BitVec.ofNat 32 s.ep.cur ∧ v.rd32 (base + 252) = BitVec.ofNat 32 s.ep.cur
      ∧ v.rd32 (base + 4) = BitVec.ofNat 32 (s.ep.cur / 2 ^ 32 % 2 ^ 16) ∧ v.rd32 (base + 8) = BitVec.ofNat 32 s.ep.edge
      ∧ v.rd32 (base + 12) = BitVec.ofNat 32 (s.ep.edge / 2 ^ 32)
      ∧ (∀ (c : Fin 48) (x : AfeCh), x = s.afe.ch[c] →
          (x.v = false → v.rd32 (base + 16 + 4 * c.val) = 0)
          ∧ (x.v = true → (v.rd32 (base + 16 + 4 * c.val)).setWidth 24 = x.val ∧ (v.rd32 (base + 16 + 4 * c.val)).getLsbD 28 = true
            ∧ (v.rd32 (base + 16 + 4 * c.val)).getLsbD 29 = x.isOpen ∧ (v.rd32 (base + 16 + 4 * c.val)).getLsbD 30 = x.ovr
            ∧ fld (v.rd32 (base + 16 + 4 * c.val)) 24 4 = min 15 ((s.now - x.last) * 16 / s.chPeriod c)))
      ∧ (∀ a, (a < base ∨ base + 256 ≤ a) → v.byte a = s.byte a)

/-- Conversions give calibrated values, and the latch writes the other sample page. -/
def Obligations.ConversionsGiveCalibratedPages : Prop := ConversionsGiveCalibratedValues ∧ SampleLatchWritesTheOtherPage

/-! ## The link: ports and control words (12) -/

/-- Control word `c` of type `ty` with a good CRC-8. -/
def Sys2Proof.Machine.GoodCtl (ty : Nat) (c : CtlWord) : Prop := ctlOk ty c = true

/-- Port `p` of `v` is in state `st` since now, LEVT.PORT of it is set, and memory is as before. -/
def Sys2Proof.Machine.Entered (s v : State) (p : Fin 4) (st : Nat) : Prop :=
  (v.lk.ports[p]).state = st ∧ (v.lk.ports[p]).since = s.now ∧ (v.reg 0x4008001C).getLsbD p.val = true ∧ v.mem = s.mem ∧ v.dm = s.dm

/-- A control word of this device: a CTYPE and the CRC-8 of its bytes (R337). -/
def Sys2Proof.Machine.CtlOut.Good (k : CtlOut) (ty : Nat) : Prop := k.ctype = ty ∧ k.crc = crc8 (BitVec.ofNat 8 ty :: leBytes 6 k.args.toNat)

/-- R337 to R339, R363, Tables YL-2, YL-3: an enabled port with transitions trains: it aligns, then sends four IDENT words; the fourth good IDENT word in a row brings
it UP with all credits and the neighbour's node, a word that fails a check is a MISMATCH with its reason, and a port that is looped back hears itself, a MISMATCH too; lost lock, DOWN from the
far end, 200 us of training and a change of the topology take it down, its held frames discarded; after a training that failed it starts again
1 ms later, not before. -/
def Sys2Proof.Machine.PortsTrainAndGoDown : Prop :=
  ∀ (s : State) (p : Fin 4) (x : Port) (c : CtlWord), s.Inv → x = s.lk.ports[p] → (s.portCfg p).getLsbD 0 = true →
    (s.pw.ref = true → s.pw.st < 2 → x.state = 0 → (x.hold ≤ s.now → ∃ v, exec (.detect p) s = .next v ∧ Entered s v p 1 ∧ (v.lk.ports[p]).train = s.now)
        ∧ (s.now < x.hold → exec (.detect p) s = .next s))
    ∧ (s.pw.ref = true → s.pw.st < 2 → x.state = 1 → ∃ v, exec (.align p) s = .next v ∧ Entered s v p 2)
    ∧ (s.pw.ref = true → s.pw.st < 2 → x.state = 2 → (s.portCfg p).getLsbD 5 = false → ∃ v k1 k2 k3 k4, exec (.align p) s = .next v ∧ Entered s v p 3
        ∧ (v.lk.ports[p]).ctlOut = x.ctlOut ++ [k1, k2, k3, k4] ∧ ∀ k ∈ [k1, k2, k3, k4], k.Good 8 ∧ k.args.toNat % 2 ^ 16 = s.nodeId.toNat)
    ∧ (s.pw.ref = true → s.pw.st < 2 → x.state = 2 → (s.portCfg p).getLsbD 5 = true → ∃ v, exec (.align p) s = .next v ∧ Entered s v p 5
        ∧ (v.lk.ports[p]).why = 3)
    ∧ ((s.portCfg p).getLsbD 5 = false → GoodCtl 8 c → x.state = 3 → x.identN = 3 → ctlArg c 4 2 = fld (s.reg 0x4008000C) 0 16 → ctlArg c 3 1 = s.topo →
        ctlArg c 1 2 % 2 ^ 14 ≠ s.nodeId.toNat → s.adjacent p (ctlArg c 1 2 % 2 ^ 14) = true →
        ∃ v, exec (.ident p c) s = .next v ∧ Entered s v p 4 ∧ (v.lk.ports[p]).cred = Vector.replicate 3 64
          ∧ (v.lk.ports[p]).dcred = Vector.replicate 3 16
          ∧ v.reg (0x40080048 + 0x20 * p.val) = (BitVec.ofNat 32 (ctlArg c 1 2 % 2 ^ 14) ||| 0x80000000))
    ∧ ((s.portCfg p).getLsbD 5 = false → GoodCtl 8 c → x.state = 3 → ctlArg c 4 2 ≠ fld (s.reg 0x4008000C) 0 16 →
        ∃ v, exec (.ident p c) s = .next v ∧ Entered s v p 5 ∧ (v.lk.ports[p]).why = 1)
    ∧ (1 ≤ x.state → x.state ≤ 5 → x.queue = [] → ∃ v, exec (.lockLost p) s = .next v ∧ Entered s v p 0 ∧ (v.lk.ports[p]).held = []
        ∧ (v.lk.ports[p]).hold = (if x.state ≤ 3 then s.now + 1000000 else 0))
    ∧ ((s.portCfg p).getLsbD 5 = false → GoodCtl 9 c → 1 ≤ x.state → x.state ≤ 5 → x.queue = [] → ∃ v, exec (.down p c) s = .next v ∧ Entered s v p 0 ∧ (v.lk.ports[p]).held = [])
    ∧ (1 ≤ x.state → x.state ≤ 3 → x.queue = [] → (x.train + 200000 ≤ s.now → ∃ v, exec (.trainingRetry p) s = .next v ∧ Entered s v p 0
          ∧ (v.lk.ports[p]).hold = s.now + 1000000)
        ∧ (s.now < x.train + 200000 → exec (.trainingRetry p) s = .next s))
    ∧ (s.pw.ref = true → s.pw.st < 2 → x.state = 0 → x.hold ≠ 0 → x.hold ≤ s.now → ∃ v, exec (.trainingRetry p) s = .next v ∧ Entered s v p 1)
    ∧ (x.state = 4 → (∀ q : Fin 4, q ≠ p → s.portState q ≠ 4) → x.queue = [] → ∃ v, exec .linkReconfig s = .next v ∧ Entered s v p 0)

/-- R345, R349, R351, R354, R295: control words of a port that is UP. ACK frees the frames it covers, CFM going back for those in
custody; NAK sends the frames from its number again and counts them; CRED returns credits up to their limit; TSQ is answered with
its two times; TSR1 and TSR2 complete the four times of an exchange. A word with a bad check does nothing, nor does any on a port looped back. -/
def Sys2Proof.Machine.ControlWordsActOnTheirPort : Prop :=
  ∀ (s : State) (p : Fin 4) (x : Port) (c : CtlWord), s.Inv → x = s.lk.ports[p] → s.portState p = 4 → (s.portCfg p).getLsbD 5 = false →
    (∀ (d : Sent) (r : List Sent), GoodCtl 1 c → x.replay = d :: r → d.frame.lseq = ctlArg c 1 1 → x.queue = [] →
      ∃ v, exec (.ack p c) s = .next v ∧ (v.lk.ports[p]).replay = r ∧ v.mem = s.mem ∧ v.hearths = s.hearths ∧ v.regs = s.regs
        ∧ (v.lk.ports[p]).ctlOut = x.ctlOut ++ (if d.frame.type = 0x03 ∨ d.frame.type = 0x05 then [ctlWord 3 (ctlArg c 1 1)] else []))
    ∧ (∀ d : Sent, GoodCtl 2 c → x.replay = [d] → d.frame.lseq = ctlArg c 1 1 → ∃ v, exec (.nak p c) s = .next v
        ∧ v.lk = { s.lk with ports := s.lk.ports.set p { x with
            replay := [{ d with last := s.now, again := d.again + 1 }], busy := max x.busy s.now + frameTime d.frame, outer := true } }
        ∧ v.reg 0x40080028 = satInc (s.reg 0x40080028) ∧ v.mem = s.mem)
    ∧ (GoodCtl 4 c → 1 ≤ ctlArg c 1 1 → ctlArg c 1 1 ≤ 3 → x.queue = [] → exec (.cred p c) s = .next { s with
        lk := { s.lk with ports := s.lk.ports.set p { x with
          cred := x.cred.set (fin 3 (ctlArg c 1 1 - 1)) (min 64 (x.cred[fin 3 (ctlArg c 1 1 - 1)] + ctlArg c 2 2)) } } })
    ∧ (GoodCtl 5 c → exec (.tsq p c) s = .next { s with lk := { s.lk with ports := s.lk.ports.set p { x with
        ctlOut := x.ctlOut ++ [ctlWord 6 (s.td * 5 / 4 % 2 ^ 48), ctlWord 7 (s.td * 5 / 4 % 2 ^ 48)] } } })
    ∧ (∀ t1, GoodCtl 6 c → x.stamps = [t1] → exec (.tsr1 p c) s = .next { s with lk := { s.lk with ports := s.lk.ports.set p { x with
        stamps := [t1, ctlArg c 1 6] } } })
    ∧ (∀ t1 t2, GoodCtl 7 c → x.stamps = [t1, t2] → ∃ v, exec (.tsr2 p c) s = .next v ∧ v.mem = s.mem
        ∧ v.lk = { s.lk with ports := s.lk.ports.set p { x with stamps := [t1, t2, ctlArg c 1 6, s.td * 5 / 4 % 2 ^ 48] } }
        ∧ v.reg (0x40080050 + 0x20 * p.val) = BitVec.ofNat 32 ((((s.td * 5 / 4 % 2 ^ 48 : Nat) : Int) - t1 - ((ctlArg c 1 6 : Int) - t2)) % 2 ^ 16).toNat)
    ∧ (∀ (u : State) (q : Fin 4) (k : CtlWord), ∀ i ∈ [(Instr.ack q k, 1), (.nak q k, 2), (.cfm q k, 3), (.cred q k, 4), (.tsq q k, 5),
        (.tsr1 q k, 6), (.tsr2 q k, 7), (.ident q k, 8), (.down q k, 9)], ¬ GoodCtl i.2 k ∨ (u.portCfg q).getLsbD 5 = true → exec i.1 u = .next u)

/-- Ports train, go down, and take their control words. -/
def Obligations.PortsTrainAndTakeControlWords : Prop := PortsTrainAndGoDown ∧ ControlWordsActOnTheirPort

/-- R351, R352, R354 to R357: the timers. A frame not acknowledged for 4 us is sent again, after the seventh time its port fails
and goes down; a held frame without its CFM for 36 us is dropped and its credits go back, its ACK sent again each 4 us meanwhile; a kept response is tried
each 36 us; a load that waits LRTO for its reply fails with 0x0C and frees its tag. -/
def Obligations.LinkTimersResendAndFail : Prop :=
  (∀ (s : State) (p : Fin 4) (x : Port) (d : Sent), s.Inv → x = s.lk.ports[p] → x.replay = [d] → d.last + 4000 ≤ s.now →
    (d.again < 7 → ∃ v, exec (.resendTimer p) s = .next v ∧ v.mem = s.mem ∧ v.reg 0x40080028 = satInc (s.reg 0x40080028)
      ∧ v.lk = { s.lk with ports := s.lk.ports.set p { x with
            replay := [{ d with last := s.now, again := d.again + 1 }], busy := max x.busy s.now + frameTime d.frame, outer := true } })
    ∧ (7 ≤ d.again → x.queue = [] → d.frame.type = 0x0C → d.frame.dst = 0x3FFF → ∃ v, exec (.linkfail p) s = .next v ∧ v.mem = s.mem
      ∧ (v.lk.ports[p]).state = 0 ∧ (v.lk.ports[p]).replay = [] ∧ (v.lk.ports[p]).ctlOut = x.ctlOut ++ [ctlWord 9 1]
      ∧ v.reg 0x40080024 = satInc (s.reg 0x40080024) ∧ (v.reg 0x4008001C).getLsbD 4 = true))
  ∧ (∀ (s : State) (p : Fin 4) (x : Port) (g : HeldFrame), x = s.lk.ports[p] → x.held = [g] → g.free = false → g.frame.tc = 3 → g.frame.det = false →
    (g.acked + 36000 ≤ s.now → exec (.custodyTimeout p) s = .next { s with lk := { s.lk with ports := s.lk.ports.set p { x with
        held := [], ctlOut := x.ctlOut ++ [ctlWord 4 (3 + frameCredits g.frame * 2 ^ 8)] } } })
    ∧ (s.now < g.acked + 36000 → exec (.custodyTimeout p) s = .next s)
    ∧ (g.last + 4000 ≤ s.now → exec (.ackResend p) s = .next { s with lk := { s.lk with ports := s.lk.ports.set p { x with
        held := [{ g with last := s.now }], ctlOut := x.ctlOut ++ [ctlWord 1 g.frame.lseq] } } }))
  ∧ (∀ (s : State) (n t : Nat) (f : Frame), s.lk.resp[n]? = some (f, t) → t + 36000 ≤ s.now →
    (s.portState (s.route none f).1 = 4 → ∃ v, exec (.responseResend n) s = .next v ∧ v.lk.resp = s.lk.resp.eraseIdx n ∧ v.mem = s.mem
        ∧ v.hearths = s.hearths)
    ∧ (s.portState (s.route none f).1 ≠ 4 → ∃ v, exec (.responseResend n) s = .next v ∧ v.lk.resp = s.lk.resp.set n (f, s.now)
        ∧ v.lk.ports = s.lk.ports ∧ v.mem = s.mem))
  ∧ (∀ (s : State) (t u k : Nat) (h : Hid) (f : FarOp), s.lk.tags = [(t, .far h k, u)] → (s.hearth h).far = [f] → f.id = k →
    farIsStore f.kind = false → u + 1000 * fld (s.reg 0x40080010) 0 16 ≤ s.now →
    ∃ v, exec (.timeout t) s = .next v ∧ v.lk.tags = [] ∧ (v.hearth h).far = [{ f with status := .failed 0x0C }] ∧ v.mem = s.mem
      ∧ (∀ g, g ≠ h → v.hearth g = s.hearth g) ∧ v.regs = s.regs)

/-! ## The link: frames (12 R344, R350, R354; Table YL-5) -/

/-- Frame `f` arrives at the port in order, with good checks, a good end and its fields within the columns of its type; the buffer of its
class has room, and no request of its hearth that it has to follow waits. -/
def Sys2Proof.Machine.State.Good (s : State) (p : Fin 4) (f : Frame) (ty : Byte) : Prop :=
  s.portState p = 4 ∧ f.hcrc = frameHcrc f ∧ f.fcrc = frameFcrc f ∧ f.lseq < 256 ∧ f.lseq = (s.lk.ports[p]).rx ∧ f.type = ty
    ∧ inColumns f = true ∧ (s.portCfg p).getLsbD 5 = false ∧ f.bad = false ∧ f.ret = false ∧ (f.tc % 4 = 0 → s.tc0Waits p < 8)
    ∧ goesAfter (s.lk.ports[p]).held f = false

/-- The rows of Table YL-5 with their types. -/
def Sys2Proof.Machine.frameRows : List ((Fin 4 → Frame → Instr) × Byte) :=
  [(.rd, 0x01), (.rdr, 0x02), (.wr, 0x03), (.wra, 0x04), (.atReq, 0x05), (.atr, 0x06), (.mb, 0x07), (.mbr, 0x08), (.halo, 0x09),
   (.haloa, 0x0A), (.stok, 0x0B), (.etok, 0x0C), (.eack, 0x0D), (.esup, 0x0E), (.eseal, 0x0F), (.rq, 0x10), (.rrst, 0x11), (.fail, 0x12)]

/-- R344, R350, R354: how any frame is taken in. One with a bad check is counted and answered with a NAK; one that came before
only with its ACK; one ahead of its turn with a NAK; WR and AT in their turn are acknowledged and held, unperformed, for their CFM. A frame that ends with K30.7 is
discarded; a copy already on its way when the FCRC fails ends so (log entry 50). Another frame for a node beyond this one goes out by its route with one hop more, and its credits go back. -/
def Obligations.FramesAreTakenInOrder : Prop :=
  ∀ (s : State) (p : Fin 4) (x : Port) (f : Frame) (c : Fin 4 → Frame → Instr) (ty : Byte), s.Inv → (c, ty) ∈ frameRows → x = s.lk.ports[p] →
    f.type = ty → s.portState p = 4 → (s.portCfg p).getLsbD 5 = false →
    (f.hcrc ≠ frameHcrc f ∨ (f.bad = false ∧ f.fcrc ≠ frameFcrc f ∧ (f.dst = 0x3FFF ∨ f.dst = s.nodeId)) → ∃ v, exec (c p f) s = .next v ∧ v.mem = s.mem ∧ v.hearths = s.hearths
        ∧ v.lk = { s.lk with ports := s.lk.ports.set p { x with ctlOut := x.ctlOut ++ [ctlWord 2 x.rx] } })
    ∧ (f.hcrc = frameHcrc f → f.bad = true → (f.dst = 0x3FFF ∨ f.dst = s.nodeId) → exec (c p f) s = .next s)
    ∧ (∀ (q : Fin 4) (g : Frame) (y : Port), f.hcrc = frameHcrc f → f.fcrc ≠ frameFcrc f → f.dst ≠ 0x3FFF → f.dst ≠ s.nodeId → f.hops < 255 → ty ≠ 0x03 → ty ≠ 0x05 →
      s.route (some p) f = (q, g) → y = s.lk.ports[q] → s.portState q = 4 → y.queue = [] → y.busy ≤ s.now → y.hasCredit g = true →
      ∃ v k, exec (c p f) s = .next v ∧ v.mem = s.mem ∧ v.hearths = s.hearths ∧ (v.lk.ports[q]).cut = y.cut ++ [k] ∧ k.bad = true ∧ k.hops = f.hops + 1
        ∧ (v.lk.ports[q]).replay = y.replay ∧ (v.lk.ports[q]).tx = y.tx)
    ∧ (∀ (q : Fin 4) (g : Frame) (y : Port), s.Good p f ty → ty ≠ 0x03 → ty ≠ 0x05 → f.dst ≠ 0x3FFF → f.dst ≠ s.nodeId → f.hops < 255 → f.tc % 4 ≠ 0 → f.det = false →
      s.route (some p) f = (q, g) → q ≠ p → y = s.lk.ports[q] → s.portState q = 4 → y.queue = [] → y.busy ≤ s.now → y.replay.length < 64 → y.hasCredit g = true →
      ∃ v k, exec (c p f) s = .next v ∧ v.mem = s.mem ∧ v.hearths = s.hearths ∧ (v.lk.ports[q]).replay = y.replay ++ [⟨k, s.now, 0⟩]
        ∧ k.hops = f.hops + 1 ∧ k.lseq = y.tx ∧ k.type = f.type ∧ k.dst = f.dst ∧ k.payload = f.payload ∧ k.hcrc = frameHcrc k ∧ k.fcrc = frameFcrc k
        ∧ (v.lk.ports[p]).ctlOut = x.ctlOut ++ [ctlWord 1 f.lseq, ctlWord 4 (f.tc % 4 + frameCredits f * 2 ^ 8)])
    ∧ (f.hcrc = frameHcrc f → f.bad = false → f.fcrc = frameFcrc f → f.lseq < 256 → x.rx < 256 →
      (128 ≤ (f.lseq + 256 - x.rx) % 256 → ∃ v, exec (c p f) s = .next v ∧ v.mem = s.mem ∧ v.hearths = s.hearths
        ∧ v.reg 0x4008002C = satInc (s.reg 0x4008002C)
        ∧ v.lk = { s.lk with ports := s.lk.ports.set p { x with ctlOut := x.ctlOut ++ [ctlWord 1 f.lseq] } })
      ∧ (0 < (f.lseq + 256 - x.rx) % 256 → (f.lseq + 256 - x.rx) % 256 < 128 → ∃ v, exec (c p f) s = .next v ∧ v.mem = s.mem ∧ v.hearths = s.hearths
        ∧ v.lk = { s.lk with ports := s.lk.ports.set p { x with ctlOut := x.ctlOut ++ [ctlWord 2 x.rx] } })
      ∧ (f.lseq = x.rx → (ty = 0x03 ∨ ty = 0x05) → f.tc % 4 ≠ 0 → exec (c p f) s = .next { s with lk := { s.lk with ports := s.lk.ports.set p { x with
          rx := (x.rx + 1) % 256, ctlOut := x.ctlOut ++ [ctlWord 1 f.lseq], held := x.held ++ [⟨f, s.now, s.now, false⟩] } } }))

/-- The request of the link engine for frame `f` stands at the crossbar behind the others. -/
def Sys2Proof.Machine.State.linkAsks (s v : State) (f : Frame) (op : XOp) : Prop :=
  ∃ tg, targetOf s.remap f.addr.toNat = some tg ∧ v.xb = { s.xb with
    reqs := s.xb.reqs ++ [⟨s.nextId + 1, ⟨11, none, modeFor f.w f.sv⟩, tg, f.addr.toNat, op, s.now, false, s.remap, .link f, none⟩] }

/-- R357, R359, R360: requests and replies at this device. An admitted RD asks for its words, a confirmed WR or AT for its write
or atomic, in the world and level of the frame; one not admitted is counted as denied and touches nothing. A WR whose byte mask has a gap asks for one access that
is a bus error of KIND 4 there (14 R388, log entry 15). A reply ends the
transaction of its tag and generation; one whose transaction has ended is counted as late; a FAIL ends it as LINKFAIL. -/
def Obligations.RequestsAndRepliesOfTheLink : Prop :=
  (∀ (s : State) (p : Fin 4) (f : Frame), s.Inv → s.Good p f 0x01 → f.dst = s.nodeId →
    (s.admits f = true → targetOf s.remap f.addr.toNat ≠ none → ∃ v, exec (.rd p f) s = .next v ∧ v.mem = s.mem ∧ v.hearths = s.hearths
        ∧ s.linkAsks v f (.read (if f.mod = 0x80 then 2 else 4 * (f.mod.toNat + 1))))
    ∧ (s.admits f = false → ∃ v, exec (.rd p f) s = .next v ∧ v.mem = s.mem ∧ v.xb = s.xb ∧ v.reg 0x40080038 = satInc (s.reg 0x40080038)
        ∧ (v.reg 0x4008001C).getLsbD 8 = true))
  ∧ (∀ (s : State) (p : Fin 4) (c : CtlWord) (g : HeldFrame) (f : Frame), s.Inv → s.portState p = 4 → (s.portCfg p).getLsbD 5 = false → GoodCtl 3 c → (s.lk.ports[p]).held = [g] →
    g.free = false → g.frame = f → f.ret = false → f.lseq = ctlArg c 1 1 → f.lseq < 256 → f.dst = s.nodeId → inColumns f = true → s.admits f = true →
    targetOf s.remap f.addr.toNat ≠ none →
    (f.type = 0x03 → f.mod = 0xF → ∃ v, exec (.cfm p c) s = .next v ∧ (v.lk.ports[p]).held = [] ∧ v.mem = s.mem ∧ v.hearths = s.hearths
        ∧ s.linkAsks v f (.write (f.payload.flatMap (fun w => leBytes 4 w.toNat))))
    ∧ (f.type = 0x03 → f.mod = 5 → f.payload.length = 1 → ∃ v, exec (.cfm p c) s = .next v ∧ v.mem = s.mem ∧ v.hearths = s.hearths ∧ s.linkAsks v f (.gaps 4))
    ∧ (f.type = 0x05 → f.mod = 0 → ∃ v, exec (.cfm p c) s = .next v ∧ (v.lk.ports[p]).held = [] ∧ v.mem = s.mem ∧ v.hearths = s.hearths
        ∧ s.linkAsks v f (.atomic .add (f.payload.getD 0 0))))
  ∧ (∀ (s : State) (p : Fin 4) (f : Frame) (h : Hid) (k : Nat) (x : FarOp), f.dst = s.nodeId → s.tagUser f.tag f.gen = some (.far h k) →
    (s.hearth h).far = [x] → x.id = k →
    (∀ w, s.Good p f 0x02 → x.kind = .ld → f.payload = [w] → f.mod = 0 → ∃ v, exec (.rdr p f) s = .next v ∧ v.mem = s.mem
        ∧ (v.hearth h).far = [{ x with status := .answered w }] ∧ v.lk.tags = s.lk.tags.filter (fun t => t.1 != f.tag))
    ∧ (s.Good p f 0x04 → f.mod = 0 → farIsStore x.kind = true → ∃ v, exec (.wra p f) s = .next v ∧ v.mem = s.mem
        ∧ (v.hearth h).far = [{ x with status := .answered 0 }] ∧ v.lk.tags = s.lk.tags.filter (fun t => t.1 != f.tag))
    ∧ (∀ w, s.Good p f 0x06 → x.kind = .add → f.payload = [w] → f.mod = 0 → ∃ v, exec (.atr p f) s = .next v ∧ v.mem = s.mem
        ∧ (v.hearth h).far = [{ x with status := .answered w }] ∧ v.lk.tags = s.lk.tags.filter (fun t => t.1 != f.tag))
    ∧ (s.Good p f 0x12 → ∃ v, exec (.fail p f) s = .next v ∧ v.mem = s.mem
        ∧ (v.hearth h).far = [{ x with status := .failed 0x0A }] ∧ v.lk.tags = s.lk.tags.filter (fun t => t.1 != f.tag)))
  ∧ (∀ (s : State) (p : Fin 4) (f : Frame), s.Inv → f.dst = s.nodeId → s.tagUser f.tag f.gen = none →
    ∀ (c : Fin 4 → Frame → Instr) (ty : Byte), (c, ty) ∈ frameRows → ty ∈ [(0x02 : Byte), 0x04, 0x06, 0x08, 0x0A, 0x12] → s.Good p f ty →
    ∃ v, exec (c p f) s = .next v ∧ v.mem = s.mem ∧ s.OnlyLines v ∧ v.lk.tags = s.lk.tags ∧ v.reg 0x40080030 = satInc (s.reg 0x40080030))
  ∧ (∀ (s : State) (p : Fin 4) (f : Frame) (k : Nat) (o : OutPost), f.dst = s.nodeId → s.tagUser f.tag f.gen = some (.post k) →
    s.hub.outs = [o] → o.id = k → s.Good p f 0x08 →
    ∃ v, exec (.mbr p f) s = .next v ∧ v.mem = s.mem ∧ v.hub.outs = []
      ∧ (∀ h y, o.sender = .hearth h → (s.hearth h).pstatOf o.box = some (o.id, y) → (v.hearth h).pstatOf o.box = some (o.id, f.mod)))
  ∧ (∀ (s : State) (p : Fin 4) (f : Frame) (h : Hid) (k : Nat) (q : FulReq), f.dst = s.nodeId → s.tagUser f.tag f.gen = some (.halo h k) →
    (s.hearth h).ful = [q] → q.kind = .run 3 → q.started = true → q.done = false → q.count ≤ q.next → 2 ≤ q.remote → s.Good p f 0x0A → f.mod = 0 →
    ∃ v, exec (.haloa p f) s = .next v ∧ v.mem = s.mem ∧ (v.hearth h).ful = [{ q with remote := q.remote - 1 }])

/-- R243, R285 to R290, R317, R361, R362, R373: what the other frames do. An MB joins its mailbox; a halo entry of the substep under
way lands in its slot; a barrier token of the substep under way, or of this or the next barrier of SYNC, is kept (log entry 13), another of a step is counted as discarded; a tick token from the parent is kept and checked; the
ack of a child is noted, the seal of an epoch not ended is held; a quench not seen before acts where RQRX allows; a reset
begins where LCTL, the allowed node, world and word allow it, and is refused where LCTL does not. -/
def Obligations.OtherFramesAct : Prop :=
  (∀ (s : State) (p : Fin 4) (f : Frame) (n : Nat), s.Inv → s.Good p f 0x07 → f.dst = s.nodeId → n = 96 + f.mod.toNat → mbEn (s.mbcfg n) = true →
    mbG (s.mbcfg n) = f.w → f.w = false → (s.hearth (mbRcv (s.mbcfg n))).run ≠ .held → s.hub.outs = [] → (s.box n).length < 8 →
    ∃ v, exec (.mb p f) s = .next v ∧ v.mem = s.mem
      ∧ v.hub.boxes = s.hub.boxes.set (fin 128 n) (s.box n ++ [⟨s.nextId + 1, f.payload.flatMap (fun w => leBytes 4 w.toNat), .node f.src, s.now⟩]))
  ∧ (∀ (s : State) (p : Fin 4) (f : Frame) (h : Hid) (a b c d : Word), s.Inv → s.Good p f 0x09 → f.dst = s.nodeId → h = fin 64 (fld f.addr 11 6) →
    (fld f.addr 24 8, f.mod.toNat) = s.subTag → fld ((s.hearth h).rd 0x458) 0 11 ≠ 0 → f.payload = [a, b, c, d] →
    ∃ v, exec (.halo p f) s = .next v ∧ (v.hearth h).frinGot = (s.hearth h).frinGot + 1
      ∧ v.bytes (feltKey h (0x40000 + 16 * fld f.addr 0 11)) 16 = leBytes 4 a.toNat ++ leBytes 4 b.toNat ++ leBytes 4 c.toNat ++ leBytes 4 d.toNat
      ∧ (∀ k, (k < feltKey h (0x40000 + 16 * fld f.addr 0 11) ∨ feltKey h (0x40000 + 16 * fld f.addr 0 11) + 16 ≤ k) → v.byte k = s.byte k))
  ∧ (∀ (s : State) (p : Fin 4) (f : Frame) (t : StepTok), s.Good p f 0x0B → f.dst = s.nodeId → t = ⟨f.src, tokBar f, fld f.addr 0 8, fld f.addr 8 8⟩ → s.Inv →
    ((t.bar = 0 → t.count = s.felt.cnt0 % 256 ∨ t.count = (s.felt.cnt0 + 1) % 256) → (t.bar ≠ 0 → (t.epoch, t.count) = s.subTag) → t ∉ s.felt.toks →
      ∃ v, exec (.stok p f) s = .next v ∧ v.felt = { s.felt with toks := s.felt.toks ++ [t] } ∧ v.hearths = s.hearths ∧ v.mem = s.mem)
    ∧ (t.bar ≠ 0 → (t.epoch, t.count) ≠ s.subTag → ∃ v, exec (.stok p f) s = .next v ∧ v.felt = s.felt ∧ v.mem = s.mem
      ∧ ∀ h, (v.hearth h).rd 0x464 = (if (s.hearth h).neighbourly = true then satInc ((s.hearth h).rd 0x464) else (s.hearth h).rd 0x464)))
  ∧ (∀ (s : State) (p : Fin 4) (f : Frame) (n t : Nat), s.Inv → s.Good p f 0x0C → f.dst = 0x3FFF → (s.reg 0x40040000).getLsbD 1 = false →
    (s.reg 0x40040000).getLsbD 2 = true → fld s.ep.tree 0 3 = p.val → s.ep.started = true → f.payload = twoWords n ++ twoWords t → n < 2 ^ 48 → t < 2 ^ 64 →
    ∃ v, exec (.etok p f) s = .next v ∧ v.mem = s.mem ∧ v.ep.token = some (n, t) ∧ v.ep.noToken = 0 ∧ v.ep.heard = true ∧ v.ep.mlost = false
      ∧ v.ep.resync = (if n = s.ep.cur then s.ep.resync else some (n + 1)))
  ∧ (∀ (s : State) (p : Fin 4) (f : Frame) (d : EpDec) (n : Nat), s.Inv → f.dst = 0x3FFF → (s.reg 0x40040000).getLsbD 1 = false →
    (s.reg 0x40040000).getLsbD 2 = true → s.ep.tree.getLsbD (4 + p.val) = true → s.ep.dec = [d] → d.epoch = n → d.own = none → d.ackSent = false →
    s.Good p f 0x0D → f.payload = twoWords n → n < 2 ^ 48 → f.mod = 0 →
    ∃ v, exec (.eack p f) s = .next v ∧ v.mem = s.mem ∧ v.ep.dec.map (fun d => d.acked) = [p :: d.acked])
  ∧ (∀ (s : State) (p : Fin 4) (f : Frame) (d : EpDec) (n : Nat), s.Inv → f.dst = 0x3FFF → (s.reg 0x40040000).getLsbD 1 = true →
    (s.reg 0x40040000).getLsbD 2 = true → s.ep.tree.getLsbD (4 + p.val) = true → s.ep.dec = [d] → d.epoch = n → d.own = none → d.sealed = false →
    d.ents = [⟨f.src, true, false⟩] → s.Good p f 0x0E → f.payload = twoWords n → n < 2 ^ 48 → f.mod = 0 →
    ∃ v, exec (.esup p f) s = .next v ∧ v.mem = s.mem ∧ v.ep.dec = [{ d with ents := [] }])
  ∧ (∀ (s : State) (p : Fin 4) (f : Frame) (n : Nat), s.Inv → f.dst = 0x3FFF → (s.reg 0x40040000).getLsbD 1 = false →
    (s.reg 0x40040000).getLsbD 2 = true → fld s.ep.tree 0 3 = p.val → s.ep.cur ≤ n → s.Good p f 0x0F → f.payload = twoWords n → n < 2 ^ 48 → f.mod = 0 →
    ∃ v, exec (.eseal p f) s = .next v ∧ v.mem = s.mem ∧ v.ep = { s.ep with heldSeal := some ⟨n, [], false⟩ })
  ∧ (∀ (s : State) (p : Fin 4) (f : Frame) (w : Word), s.Inv → f.dst = 0x3FFF → s.Good p f 0x10 → f.payload = [w] →
    ((f.src.toNat, fld w 16 8) ∈ s.lk.rqs → ∃ v, exec (.rq p f) s = .next v ∧ v.mem = s.mem ∧ v.dm = s.dm ∧ v.lk.rqs = s.lk.rqs ∧ v.hearths = s.hearths)
    ∧ ((f.src.toNat, fld w 16 8) ∉ s.lk.rqs → (s.reg 0x40050000).getLsbD 0 = true →
        ∃ v, exec (.rq p f) s = .next v ∧ v.lk.rqs = ((f.src.toNat, fld w 16 8) :: s.lk.rqs).take 32
          ∧ Latched s v 12 (fun o => w.getLsbD (s.oGroup o).val)))
  ∧ (∀ (s : State) (p : Fin 4) (f : Frame), s.Inv → f.dst = s.nodeId → s.Good p f 0x11 → (s.reg 0x40080000).getLsbD 2 = false →
    ∃ v, exec (.rrst p f) s = .next v ∧ v.mem = s.mem ∧ v.dm = s.dm ∧ v.pw = s.pw ∧ (v.reg 0x4008001C).getLsbD 9 = true)
  ∧ (∀ (s : State) (p : Fin 4) (f : Frame), s.Inv → f.dst = s.nodeId → s.Good p f 0x11 → (s.reg 0x40080000).getLsbD 2 = true →
    (fld (s.reg 0x40080014) 0 14 = f.src.toNat ∨ fld (s.reg 0x40080014) 0 14 = 0x3FFF) → f.w = true → f.sv = true → f.payload = [0x0000A55A] →
    ∃ v, exec (.rrst p f) s = .next v ∧ v.pw.rst = some s.now ∧ v.hearths = State.reset.hearths ∧ v.hub = State.reset.hub
      ∧ v.reg 0x40100004 = s.reg 0x40100004 ||| 0x20 ∧ ∀ o : Fin 96, (v.dm.out[o]).mask.getLsbD 14 = true)

/-! ## Secure SRAM, life cycle, debug and tamper (14, 16) -/

/-- Secure SRAM is all 0, and every other byte of memory is as before. -/
def Sys2Proof.Machine.Wiped (s v : State) : Prop := ∀ a, v.byte a = if 0x12000000 ≤ a ∧ a < 0x12010000 then 0 else s.byte a

/-- SKEY0 to SKEY7 are 0. -/
def Sys2Proof.Machine.KeysCleared (v : State) : Prop := ∀ i < 8, v.reg (0x400C00A0 + 4 * i) = 0

/-- R401, R455: the key in SWIPE wipes secure SRAM and sets WIPING, another value does nothing; a burst that target 2 holds ends there
as a bus error, and while WIPING is set target 2 refuses with KIND 5; otherwise world G reads and writes it and every other access ends with KIND 2; the wipe completes. -/
def Sys2Proof.Machine.SecureSramIsWiped : Prop :=
  (∀ (s : State) (w : Who) (x : Word), s.ReachesGs w 0x400C0024 →
    (x = 0x5749 → s.xb.busy[2] = none →
      ∃ v, Accepted (.swipe w x) s v ∧ Wiped s v ∧ v = { s with mem := v.mem, sec := { s.sec with wipe := some s.now } })
    ∧ (∀ r, x = 0x5749 → s.xb.busy[2] = some r → s.Inv →
      ∃ v, Accepted (.swipe w x) s v ∧ Wiped s v ∧ v.xb.busy = s.xb.busy.set 2 none ∧ v.sec = { s.sec with wipe := some s.now }
        ∧ v.reg 0x40030028 = satInc (s.reg 0x40030028)
        ∧ ((s.reg 0x40030024).getLsbD 31 = false → fld (v.reg 0x40030024) 9 4 = 5))
    ∧ (x ≠ 0x5749 → Accepted (.swipe w x) s s))
  ∧ (∀ (s : State) (w : Who) (x a : Word), s.Inv → s.Reaches w a.toNat true → 0x12000000 ≤ a.toNat → a.toNat < 0x12010000 →
    a.toNat % 4 = 0 →
    s.Reaches w a.toNat false →
    (s.sec.wipe ≠ none → BusError (.registerWrite w a x) s 5 ∧ BusError (.rcRead w a) s 5)
    ∧ (s.sec.wipe = none → isG (s.carried w).mode = false → BusError (.registerWrite w a x) s 2 ∧ BusError (.rcRead w a) s 2)
    ∧ (s.sec.wipe = none → isG (s.carried w).mode = true → Answered (.rcRead w a) s (s.rd32 a.toNat) s)
    ∧ (s.sec.wipe = none → isG (s.carried w).mode = true → Accepted (.registerWrite w a x) s (s.wr32 a.toNat x)))
  ∧ (∀ s : State, exec .wipeComplete s = .next { s with sec := { s.sec with wipe := none } })

/-- R451: two equal writes of 0xB700 + target by one master in GS within 1 ms advance the life cycle by one step, or to
SCRAPPED: secure SRAM is wiped, SKEY and the unlock are cleared. A first write is kept; one for no such step is not. -/
def Sys2Proof.Machine.LifeCycleAdvancesByItsSteps : Prop :=
  ∀ (s : State) (w : Who) (x : Word) (n : Nat), s.Inv → s.ReachesGs w 0x400C0004 → fld x 0 16 = 0xB700 + n →
    (s.sec.cycle < 4 → (n = s.sec.cycle + 1 ∨ n = 4) →
      (s.sec.adv = none → Accepted (.slcadv w x) s { s with sec := { s.sec with adv := some (s.carried w, x, s.now) } })
      ∧ (∀ t, s.sec.adv = some (s.carried w, x, t) → s.now ≤ t + 1000000 → s.xb.busy[2] = none →
          ∃ v, Accepted (.slcadv w x) s v ∧ Wiped s v ∧ KeysCleared v
          ∧ v = { s with mem := v.mem, regs := v.regs, sec := { s.sec with cycle := n, adv := none, unlk := false, wipe := some s.now } }
          ∧ ∀ a, (a < 0x400C00A0 ∨ 0x400C00C0 ≤ a) → v.reg a = s.reg a)
      ∧ (∀ c u t, s.sec.adv = some (c, u, t) →
          (c.master ≠ (s.carried w).master ∨ c.hearth ≠ (s.carried w).hearth ∨ u ≠ x ∨ t + 1000000 < s.now) →
          Accepted (.slcadv w x) s { s with sec := { s.sec with adv := some (s.carried w, x, s.now) } }))
    ∧ (¬ (s.sec.cycle < 4 ∧ (n = s.sec.cycle + 1 ∨ n = 4)) → Accepted (.slcadv w x) s { s with sec := { s.sec with adv := none } })

/-- R453: SDBGGO with GO starts a verification, or is refused once LOCKD is set; the result is UNLK where the key has the hash
of OTP slot 3 and the signature of the challenge and the identity verifies, else a failure, the third of which sets LOCKD; the challenge is a new one, of no given value. -/
def Sys2Proof.Machine.DebugUnlockVerifies : Prop :=
  (∀ (s : State) (w : Who) (x : Word), s.Inv →
    (s.ReachesGs w 0x400C0090 ∨ (s.Reaches w 0x400C0090 true ∧ w.master = 14 ∧ s.sec.cycle ≠ 4)) → x.getLsbD 0 = true → s.sec.busy = false →
    (s.sec.lockd = false → Accepted (.sdbggo w x) s { s with sec := { s.sec with busy := true } })
    ∧ (s.sec.lockd = true → BusError (.sdbggo w x) s 5))
  ∧ (∀ (s : State) (key text : List Byte) (good : Bool), s.sec.busy = true → key = s.secBytes 0x0C0 16 →
    text = s.sec.chal.toList.flatMap (fun c => leBytes 4 c.toNat) ++ leBytes 4 (Config.suid 0).toNat ++ leBytes 4 (Config.suid 1).toNat →
    (good = true ↔ sha256 key = Config.otpKey 3 ∧ P256.verify (sha256 text) (s.secBytes 0x050 16) key = true) →
    ∃ v, exec .unlockResult s = .next v ∧ v = { s with regs := v.regs, free := v.free, sec := v.sec }
      ∧ (good = true → v.sec = { s.sec with busy := false, unlk := true, chal := v.sec.chal })
      ∧ (good = false → v.sec = { s.sec with busy := false, fails := s.sec.fails + 1, lockd := decide (3 ≤ s.sec.fails + 1), chal := v.sec.chal }))

/-- R454, R455: an enabled source that becomes active wipes secure SRAM, clears SKEY and the unlock, latches TAMPER in every
output, makes line 31 pending on the GS supervisor hearth, is logged in STLOG and counted in STCNT; one that is not enabled
is only seen; TAMPER is gone with the last active source. In DEPLOYED source 0 is enabled whatever STCFG was written. -/
def Sys2Proof.Machine.TamperSourcesAct : Prop :=
  (∀ (s : State) (n : Fin 4), s.Inv → s.sec.tamper.getLsbD n.val = false →
    ((s.reg 0x400C0020).getLsbD n.val = true ∨ (n = 0 ∧ s.sec.cycle = 2) →
      ∃ v, exec (.tamper n) s = .next v ∧ Wiped s v ∧ KeysCleared v ∧ (s.xb.busy[2] = none → s.OnlyLines v) ∧ v.dm.tamp = true
        ∧ v.sec = { s.sec with tamper := s.sec.tamper ||| BitVec.ofNat 4 (2 ^ n.val), unlk := false, wipe := some s.now }
        ∧ (∀ o : Fin 96, (v.dm.out[o]).mask.getLsbD 10 = true ∧ ((s.dm.out[o]).mask.getLsbD 10 = false → (v.dm.out[o]).win = none))
        ∧ (∀ h, (s.hearth h).gsh = true → (v.hearth h).icpend.getLsbD 31 = true ∧ (v.hearth h).nmi31 = true)
        ∧ (v.reg 0x400C0018).getLsbD n.val = true ∧ v.reg 0x400C001C = satInc (s.reg 0x400C001C))
    ∧ ((s.reg 0x400C0020).getLsbD n.val = false → ¬ (n = 0 ∧ s.sec.cycle = 2) →
      exec (.tamper n) s = .next { s with sec := { s.sec with tamper := s.sec.tamper ||| BitVec.ofNat 4 (2 ^ n.val) } }))
  ∧ (∀ (s : State) (n : Fin 4) (x : BitVec 4), x = s.sec.tamper &&& ~~~(BitVec.ofNat 4 (2 ^ n.val)) →
    exec (.tamperInactive n) s = .next { s with
      sec := { s.sec with tamper := x }
      dm := { s.dm with tamp := s.dm.tamp && decide (x ≠ 0) } })

/-- R401, R451, R453 to R455: the wipe of secure SRAM, the steps of the life cycle, the debug unlock and tamper. -/
def Obligations.SecurityFollowsLifeCycleAndTamper : Prop :=
  SecureSramIsWiped ∧ LifeCycleAdvancesByItsSteps ∧ DebugUnlockVerifies ∧ TamperSourcesAct

/-! ## Staging, reblocks and flash commands (16) -/

/-- A byte of a shadow store: the other program banks, block RAM, damper set and material tables. -/
def Sys2Proof.Machine.State.InShadow (s : State) (a : Nat) : Prop :=
  (∃ k : Fin 8, progKey k (if s.bankSel.getLsbD k.val then 0 else 1) 0 ≤ a ∧ a < progKey k (if s.bankSel.getLsbD k.val then 0 else 1) 0 + 0x60000)
  ∨ (bramBase (!s.blksel) ≤ a ∧ a < bramBase (!s.blksel) + 0x80000) ∨ (setBase (!s.dsel) ≤ a ∧ a < setBase (!s.dsel) + 0x1000)
  ∨ ∃ h : Hid, matKey h (!s.mtab) ≤ a ∧ a < matKey h (!s.mtab) + 0x1000

/-- A staging run has failed with a code: ERR and the code, nothing staged, no byte outside the shadow stores changed, and none of
an armed reblock at all. -/
def Sys2Proof.Machine.StagingFailed (s v : State) (code : Nat) : Prop :=
  v.pat.stage = none ∧ v.pat.staged = false ∧ (v.reg 0x400B0024).getLsbD 2 = true ∧ fld (v.reg 0x400B0024) 8 8 = code
    ∧ (∀ a, ¬ s.InShadow a ∨ s.armed = true → v.byte a = s.byte a) ∧ v.hearths = s.hearths ∧ v.bank = s.bank ∧ v.blksel = s.blksel

/-- The flash answers one reading of a slot without an error before byte `n`. -/
def Sys2Proof.Machine.State.ReadsTo (s : State) (n : Nat) : Prop := ∀ f, Config.flashFail s.free = some f → n ≤ f

/-- R438, R441, R442: PSTGC.GO starts a run on the slot named and clears STAGED, unless one runs; ABORT ends it with code 0x0D; at its
end the first failure of stages 3 to 6 is recorded, a flash error as 0x0D, or the sections stand in the shadow stores, with STAGED and
PSBID := BID. A run that ends while a reblock is armed ends with 0x0D and leaves the shadow (the model's choice, log entry 53). -/
def Sys2Proof.Machine.StagingChecksAndLoads : Prop :=
  (∀ (s : State) (w : Who) (b : Bool), s.ReachesGs w 0x400B0020 →
    (s.pat.stage = none → Accepted (.staging w b) s { s with pat := { s.pat with stage := some b, staged := false } })
    ∧ (s.pat.stage ≠ none → Accepted (.staging w b) s s))
  ∧ (∀ (s : State) (w : Who), s.Inv → s.ReachesGs w 0x400B0020 →
    (s.pat.stage ≠ none → ∃ v, Accepted (.stagingAbort w) s v ∧ StagingFailed s v 0x0D)
    ∧ (s.pat.stage = none → Accepted (.stagingAbort w) s s))
  ∧ (∀ (s : State) (b : Bool), s.Inv → s.pat.stage = some b →
    (slotThere b = false → ∃ v, exec .stagingDone s = .next v ∧ StagingFailed s v 0x01)
    ∧ (∀ f, slotThere b = true → Config.flashFail s.free = some f → f < 256 ∨ (s.headErr b = none ∧ f < s.patLen b) →
        ∃ v, exec .stagingDone s = .next v ∧ StagingFailed s v 0x0D)
    ∧ (∀ c o, s.ReadsTo 256 → s.headErr b = some (c, o) → ∃ v, exec .stagingDone s = .next v ∧ StagingFailed s v c)
    ∧ (∀ c o, s.ReadsTo (s.patLen b) → s.headErr b = none → s.bodyErr b = some (c, o) →
        ∃ v, exec .stagingDone s = .next v ∧ StagingFailed s v c)
    ∧ (s.ReadsTo (s.patLen b) → s.headErr b = none → s.bodyErr b = none → s.armed = true →
        ∃ v, exec .stagingDone s = .next v ∧ StagingFailed s v 0x0D)
    ∧ (s.ReadsTo (s.patLen b) → s.headErr b = none → s.bodyErr b = none → s.armed = false → ∃ v, exec .stagingDone s = .next v ∧ v.pat.stage = none ∧ v.pat.staged = true
        ∧ v.pat.sslot = b ∧ v.pat.slc = s.patLc b ∧ v.reg 0x400B0018 = s.patW b 0x14
        ∧ v.mem = (s.loadAll b s.shadow false).mem ∧ (∀ a, ¬ s.InShadow a → v.byte a = s.byte a)
        ∧ v.hearths = s.hearths ∧ v.bank = s.bank ∧ v.blksel = s.blksel))

/-- The status of a reblock after an abort: ABT with its WHY, line 15 on every hearth, the block registers else as before. -/
def Sys2Proof.Machine.RbAborted (s v : State) (why : Nat) : Prop :=
  (v.reg 0x400B003C).getLsbD 3 = true ∧ fld (v.reg 0x400B003C) 4 4 = why ∧ s.OnlyLines v ∧ (∀ h, (v.hearth h).icpend.getLsbD 15 = true)
    ∧ v = { s with regs := v.regs, hearths := v.hearths } ∧ ∀ a, a ≠ 0x400B003C → v.reg a = s.reg a

/-- R444, R448, R449: an arm aborts with the WHY of its first condition that fails, or sets ARMED with FAB for the epoch in
RBEL and RBEH; a disarm clears it with WHY 10; a COMMIT for the armed epoch is taken until RBCUT before its edge, else refused. -/
def Sys2Proof.Machine.ReblocksAreArmedAndCommitted : Prop :=
  (∀ (s : State) (w : Who) (fab ok : Bool) (e : Nat), s.Inv → s.ReachesGs w 0x400B0038 →
    e = (s.reg 0x400B0030).toNat + fld (s.reg 0x400B0034) 0 16 * 2 ^ 32 →
    (ok = true ↔ s.pat.staged = true ∨ (s.sec.cycle = 1 ∧ s.pat.slc ≠ 0)) →
    (ok = false → ∃ v, Accepted (.arm w fab) s v ∧ RbAborted s v 1)
    ∧ (ok = true → s.pat.stage ≠ none → ∃ v, Accepted (.arm w fab) s v ∧ RbAborted s v 2)
    ∧ (ok = true → s.pat.stage = none → e < s.ep.cur + 2 → ∃ v, Accepted (.arm w fab) s v ∧ RbAborted s v 3)
    ∧ (ok = true → s.pat.stage = none → s.ep.cur + 2 ≤ e → s.setOk (!s.dsel) = false → ∃ v, Accepted (.arm w fab) s v ∧ RbAborted s v 4)
    ∧ (ok = true → s.pat.stage = none → s.ep.cur + 2 ≤ e → s.setOk (!s.dsel) = true → s.shadowEntries = false →
        ∃ v, Accepted (.arm w fab) s v ∧ RbAborted s v 5)
    ∧ (ok = true → s.pat.stage = none → s.ep.cur + 2 ≤ e → s.setOk (!s.dsel) = true → s.shadowEntries = true →
        ∃ v, Accepted (.arm w fab) s v ∧ v.pat = { s.pat with armE := e } ∧ (v.reg 0x400B003C).getLsbD 0 = true
          ∧ (v.reg 0x400B003C).getLsbD 1 = false ∧ (v.reg 0x400B003C).getLsbD 8 = fab ∧ s.OnlyLines v
          ∧ (∀ h, (v.hearth h).icpend.getLsbD 15 = true) ∧ v = { s with regs := v.regs, hearths := v.hearths, pat := v.pat }))
  ∧ (∀ (s : State) (w : Who), s.Inv → s.ReachesGs w 0x400B0038 →
    ((s.reg 0x400B003C).getLsbD 0 = true → ∃ v, Accepted (.disarm w) s v ∧ RbAborted s v 10 ∧ (v.reg 0x400B003C).getLsbD 0 = false
        ∧ (v.reg 0x400B003C).getLsbD 1 = false)
    ∧ ((s.reg 0x400B003C).getLsbD 0 = false → Accepted (.disarm w) s s))
  ∧ (∀ (s : State) (w : Who) (e : Nat) (ok : Bool), s.Inv → s.ReachesGs w 0x400B0038 →
    e = (s.reg 0x400B0030).toNat + fld (s.reg 0x400B0034) 0 16 * 2 ^ 32 →
    (ok = true ↔ (s.reg 0x400B003C).getLsbD 0 = true ∧ e = s.pat.armE
      ∧ s.td + fld (s.reg 0x400B0048) 0 20 * 1000 ≤ s.ep.edge + (e - s.ep.cur) * s.ep.per * 1000) →
    (ok = true → ∃ v, Accepted (.reblockCommit w) s v ∧ v = { s with regs := v.regs }
        ∧ v.reg 0x400B003C = s.reg 0x400B003C ||| 2 ∧ ∀ a, a ≠ 0x400B003C → v.reg a = s.reg a)
    ∧ (ok = false → BusError (.reblockCommit w) s 5))

/-- A hearth is parked: its issue is held at an EPWAIT at PARK, outside a handler, with its target still set and no loop, REP
or repeated branch open. -/
def Sys2Proof.Machine.State.Parked (s : State) (h : Hid) : Prop :=
  (s.hearth h).wait = .epwait ∧ (s.hearth h).pc = s.entPark s.blksel h ∧ (s.hearth h).entry = none ∧ (s.hearth h).ewtV = true
    ∧ (s.hearth h).lpa = 0 ∧ (s.hearth h).remain = 0 ∧ (s.hearth h).pbrV = false

/-- What an edge with a reblock due leaves of memory: all of it, where no vector, sample latch or patched line waited for it. -/
def Sys2Proof.Machine.State.EdgeKeeps (s v : State) : Prop :=
  s.dm.vec = none → s.afe.edge = false → (∀ k : Fin 8, (s.stks[k]).patch = []) → v.mem = s.mem

/-- R445 to R449: at the edge that starts the armed epoch the selectors of block RAM, program banks, material tables and class switch,
STAGED is set, PABID and PSBID exchange and DONE is set, if every running hearth is parked and a fabric arm holds COMMIT; the damper's
set follows with its vector and each stack's bank with the edge's arrival there; else nothing switches, the arm ends with WHY 9 or
WHY 8, and with WHY 8 RBNP names the hearths that were not parked. -/
def Sys2Proof.Machine.ReblocksSwapAtTheirEdge : Prop :=
  (∀ (s : State), s.Inv → s.ep.started = true → s.pw.st < 2 → s.ep.edge + s.ep.per * 1000 ≤ s.td → s.ep.epdlGone = true →
    s.ep.copies = [] → s.ep.resync = none → s.ep.heldSeal = none → s.ep.step = none → (s.reg 0x40040000).getLsbD 2 = false →
    (s.reg 0x400B003C).getLsbD 0 = true → s.pat.armE = s.ep.cur + 1 → s.xb.busy[4] = none →
    ((((s.reg 0x400B003C).getLsbD 8 = false ∨ (s.reg 0x400B003C).getLsbD 1 = true) ∧ ∀ h, (s.hearth h).run = .running → s.Parked h) →
      ∃ v, exec .tickEdge s = .next v ∧ v.bankSel = ~~~s.bankSel ∧ v.blksel = !s.blksel ∧ v.mtab = !s.mtab ∧ v.lc = BitVec.ofNat 2 s.pat.slc
        ∧ v.pat.staged = true ∧ v.pat.aslot = s.pat.sslot ∧ v.pat.sslot = s.pat.aslot
        ∧ v.reg 0x400B0014 = s.reg 0x400B0018 ∧ v.reg 0x400B0018 = s.reg 0x400B0014
        ∧ fld (v.reg 0x400B003C) 0 2 = 0 ∧ (v.reg 0x400B003C).getLsbD 2 = true ∧ v.ep.cur = s.ep.cur + 1 ∧ s.EdgeKeeps v
        ∧ (∃ e p, v.dm.vec = some ⟨e, true, p⟩)
        ∧ ∀ h, (v.hearth h).icpend.getLsbD 15 = true ∧ (v.hearth h).gsh = s.entGsh (!s.blksel) h
          ∧ (v.hearth h).resume = ((s.hearth h).run == .running))
    ∧ ((s.reg 0x400B003C).getLsbD 8 = true → (s.reg 0x400B003C).getLsbD 1 = false →
      ∃ v, exec .tickEdge s = .next v ∧ v.bank = s.bank ∧ v.blksel = s.blksel ∧ v.mtab = s.mtab ∧ v.pat = s.pat
        ∧ (v.reg 0x400B003C).getLsbD 3 = true ∧ fld (v.reg 0x400B003C) 4 4 = 9 ∧ s.EdgeKeeps v ∧ v.ep.cur = s.ep.cur + 1)
    ∧ (((s.reg 0x400B003C).getLsbD 8 = false ∨ (s.reg 0x400B003C).getLsbD 1 = true) →
      (∃ h, (s.hearth h).run = .running ∧ ¬ s.Parked h) →
      ∃ v, exec .tickEdge s = .next v ∧ v.bank = s.bank ∧ v.blksel = s.blksel ∧ v.mtab = s.mtab ∧ v.pat = s.pat
        ∧ (v.reg 0x400B003C).getLsbD 3 = true ∧ fld (v.reg 0x400B003C) 4 4 = 8 ∧ s.EdgeKeeps v ∧ v.ep.cur = s.ep.cur + 1
        ∧ ∀ h : Hid, (v.reg (0x400B0040 + 4 * (h.val / 32))).getLsbD (h.val % 32) = true
            ↔ ((s.hearth h).run = .running ∧ ¬ s.Parked h)))
  ∧ (∀ (s : State) (k : Fin 8), s.Inv → s.stackRuns k = true → s.ep.started = true →
    ((s.stks[k]).epoch ≠ s.ep.cur ∨ (s.stks[k]).edge ≠ s.ep.edge) → (s.stks[k]).due = true → (s.stks[k]).patch = [] →
    ∃ v, exec (.tickEdgeArrival k) s = .next v ∧ v.bank = s.bank ^^^ BitVec.ofNat 8 (2 ^ k.val) ∧ v.bankSel = s.bankSel
      ∧ (v.stks[k]).due = false ∧ (v.stks[k]).lc = s.lc
      ∧ (∀ h : Hid, h.val / 8 = k.val → (s.hearth h).wait ≠ .epwait → (v.hearth h).crown = none ∧ (v.hearth h).btb = [])
      ∧ ((∀ h : Hid, h.val / 8 = k.val → (s.hearth h).wait ≠ .epwait) → v.mem = s.mem))

/-- The flash address that PQCMD and PQADDR name: none without address bytes. -/
def Sys2Proof.Machine.State.flashAddr (s : State) (c : Word) : Option Nat :=
  if fld c 8 2 = 0 then none else some (if fld c 8 2 = 1 then (s.reg 0x400B0064).toNat % 2 ^ 24 else (s.reg 0x400B0064).toNat)

/-- Byte `i` of PQDATA. -/
def Sys2Proof.Machine.State.pqByte (s : State) (i : Nat) : Byte := ((s.reg (0x400B0080 + 4 * (i / 4))) >>> (8 * (i % 4))).setWidth 8

/-- R431, R443: PQCMD with GO starts a flash command or is refused with REF: chip erase, and outside Hold an erase or a program
within the pattern of the active slot. A command that completes erases, programs (bits are only cleared) or returns data, with
ERR after a controller error. The window answers a master in G with the flash's bytes, another with KIND 2; a read waits while a
command or a staging run has the flash, and a write ends with KIND 2. -/
def Sys2Proof.Machine.FlashCommandsRespectTheActiveSlot : Prop :=
  (∀ (s : State) (w : Who) (x : Word) (op : Byte) (no : Bool), s.Inv → s.ReachesGs w 0x400B0060 → fld x 8 2 ≠ 3 → fld x 16 7 ≤ 64 →
    s.pat.qcmd = none → op = BitVec.ofNat 8 (fld x 0 8) →
    (no = true ↔ op = 0x60 ∨ op = 0xC7 ∨ ((Config.flashErase op ≠ 0 ∨ Config.flashProgram op = true) ∧ s.pw.hold = false
      ∧ ∃ a, s.flashAddr x = some a ∧ slotBase s.pat.aslot ≤ a ∧ a < slotBase s.pat.aslot + s.patLen s.pat.aslot)) →
    (no = true → ∃ v, Accepted (.qspiCommand w x) s v ∧ v = { s with regs := v.regs } ∧ (v.reg 0x400B0068).getLsbD 2 = true)
    ∧ (no = false → ∃ v, Accepted (.qspiCommand w x) s v ∧ v.reg 0x400B0068 = s.reg 0x400B0068
        ∧ v = { s with regs := v.regs, pat := { s.pat with qcmd := some (x ||| 0x80000000) } }))
  ∧ (∀ (s : State) (c : Word) (err : Bool) (op : Byte) (z : Nat), s.Inv → s.pat.qcmd = some c → op = BitVec.ofNat 8 (fld c 0 8) →
    z = Config.flashErase op →
    ∃ v, exec (.qspiCommandDone err) s = .next v ∧ v.pat = { s.pat with qcmd := none } ∧ v.hearths = s.hearths
      ∧ (v.reg 0x400B0068).getLsbD 1 = ((s.reg 0x400B0068).getLsbD 1 || err)
      ∧ (∀ a, s.flashAddr c = some a → z ≠ 0 → err = false → ∀ k, v.byte k =
          (if flashKey (a - a % z) ≤ k ∧ k < flashKey (a - a % z) + z then 0xFF else s.byte k))
      ∧ (∀ a, s.flashAddr c = some a → z = 0 → Config.flashProgram op = true → err = false → ∀ k, v.byte k =
          (if flashKey a ≤ k ∧ k < flashKey a + min 64 (fld c 16 7) then s.byte k &&& s.pqByte (k - flashKey a) else s.byte k))
      ∧ (∀ a, s.flashAddr c = some a → z = 0 → Config.flashProgram op = false → c.getLsbD 28 = false → err = false → (op = 0x03 ∨ op = 0x13) →
          v.mem = s.mem ∧ ∀ i < min 64 (fld c 16 7), v.pqByte i = s.byte (flashKey (a + i)))
      ∧ (z = 0 → Config.flashProgram op = false → v.mem = s.mem))
  ∧ (∀ (s : State) (w : Who) (a : Word) (n : Fin 256), s.Inv → a.toNat < 0x4000000 → a.toNat % 256 + n.val < 256 →
    s.Reaches w (0x60000000 + a.toNat) false →
    (isG (s.carried w).mode = true → exec (.qspiWindowRead w a n) s =
      .next { s with xb := { s.xb with ans := (0, s.bytes (flashKey a.toNat) (n.val + 1)) } })
    ∧ (isG (s.carried w).mode = false → BusError (.qspiWindowRead w a n) s 2))
  ∧ (∀ (s : State) (w : Who) (a : Word) (n : Fin 256), a.toNat < 0x4000000 → (s.pat.qcmd ≠ none ∨ s.pat.stage ≠ none) →
    exec (.qspiWindowRead w a n) s = .next { s with
      nextId := s.nextId + 1
      xb := { s.xb with
        ans := (15, [])
        reqs := s.xb.reqs ++ [⟨s.nextId + 1, w, 18, 0x60000000 + a.toNat, .read (n.val + 1), s.now, false, s.remap, .cmd, none⟩] } })
  ∧ (∀ (s : State) (w : Who) (a x : Word), s.Inv → 0x60000000 ≤ a.toNat → a.toNat < 0x64000000 → a.toNat % 4 = 0 → s.Reaches w a.toNat true →
    BusError (.registerWrite w a x) s 2)

/-- R431, R441 to R449: staging, arming, commit and swap of a reblock, flash commands and the flash window. What 0x03 and 0x13
return, what a program leaves, and PQCMD's codes are the model's choice (log entries 5 and 38). -/
def Obligations.PatternsAreStagedArmedAndSwapped : Prop :=
  StagingChecksAndLoads ∧ ReblocksAreArmedAndCommitted ∧ ReblocksSwapAtTheirEdge ∧ FlashCommandsRespectTheActiveSlot

/-! ## Operating points, sleep and wake (17) -/

/-- No change of operating point waits or is queued, and every stack but `k` runs at the point it asks for. -/
def Sys2Proof.Machine.State.OpsSettled (s : State) (k : Fin 8) : Prop :=
  s.pw.chg = none ∧ s.pw.queue = [] ∧ ∀ j : Fin 8, j ≠ k → s.opEff j (s.opReq j.val) = s.opOf j.val

/-- What a change of points leaves alone: memory, hearths, hub, damper, epoch, links, measurement. -/
def Sys2Proof.Machine.State.OnlyPower (s v : State) : Prop :=
  v.mem = s.mem ∧ v.hearths = s.hearths ∧ v.hub = s.hub ∧ v.dm = s.dm ∧ v.ep = s.ep ∧ v.lk = s.lk ∧ v.afe = s.afe ∧ v.pending = s.pending

/-- R462 to R467: in Blaze and Banked a request for a point of one stack, carried out as OP4 at most while it is capped, is taken at
once when it lowers it or VDD_IN suffices, waits for the regulator when VDD_IN must rise, and is taken when that is ready; 2 ms
without readiness abandons it with VFAIL and the old target; a cap at OP5 leads to OP4, and its release after 1 ms lets a standing
request go. In Ember and Cold no point changes. -/
def Obligations.OperatingPointsChangeInOrder : Prop :=
  (∀ (s : State) (w : Who) (k op : Fin 8) (e : Nat), s.Inv → s.ReachesGs w 0x40010004 → s.OpsSettled k → s.pw.st < 2 → op.val < 6 →
    e = (if s.pw.cap.getLsbD k.val then min op.val 4 else op.val) →
    ∃ v, exec (.opChange w k op) s = .next v ∧ v.xb.ans = (0, []) ∧ s.OnlyPower v ∧ v.opReq k.val = op.val
      ∧ (∀ j : Fin 8, j ≠ k → v.opReq j.val = s.opReq j.val ∧ v.opOf j.val = s.opOf j.val)
      ∧ (e ≤ s.opOf k.val ∨ s.vinFor k e ≤ s.pw.vin → v.opOf k.val = e ∧ v.pw.chg = none ∧ (e ≠ s.opOf k.val → v.pw.vin = s.vinFor k e))
      ∧ (s.opOf k.val < e → s.pw.vin < s.vinFor k e → v.opOf k.val = s.opOf k.val ∧ v.pw.vin = s.vinFor k e
          ∧ v.pw.chg = some ⟨k, e, s.pw.vin, s.now⟩))
  ∧ (∀ (s : State) (w : Who) (k op : Fin 8), s.Inv → s.ReachesGs w 0x40010004 → 6 ≤ op.val →
    ∃ v, exec (.opChange w k op) s = .next v ∧ v.reg 0x40010004 = s.reg 0x40010004)
  ∧ (∀ (s : State) (c : OpChg), s.Inv → s.pw.chg = some c → s.pw.queue = [] → s.pw.st < 2 →
    (s.pw.vmode.toNat < 32 → s.now ≤ c.since + 2000000 → ∃ v, exec .regulatorReady s = .next v ∧ v.pw.chg = none ∧ v.opOf c.stack.val = s.opEff c.stack c.op % 8 ∧ s.OnlyPower v
      ∧ (∀ j : Fin 8, j ≠ c.stack → v.opOf j.val = s.opOf j.val))
    ∧ (32 ≤ s.pw.vmode.toNat ∨ c.since + 2000000 < s.now → exec .regulatorReady s = .next s)
    ∧ (c.since + 2000000 ≤ s.now → ∃ v, exec .vfail s = .next v ∧ v.pw.chg = none ∧ v.pw.vin = c.vin ∧ v.mem = s.mem ∧ s.OnlyLines v
        ∧ (v.reg 0x40010028).getLsbD 4 = true ∧ v.reg 0x40010008 = s.reg 0x40010008 ∧ v.reg 0x40010004 = s.reg 0x40010004)
    ∧ (s.now < c.since + 2000000 → exec .vfail s = .next s))
  ∧ (∀ s : State, s.pw.chg = none → exec .regulatorReady s = .next s ∧ exec .vfail s = .next s)
  ∧ (∀ (s : State) (k : Fin 8), 2 ≤ s.pw.st → exec .regulatorReady s = .next s ∧ exec .vfail s = .next s ∧ exec (.cap k) s = .next s
    ∧ exec (.rel k) s = .next s)
  ∧ (∀ (s : State) (k : Fin 8), s.Inv → s.pw.cap.getLsbD k.val = false → s.pw.st < 2 →
    ∃ v, exec (.cap k) s = .next v ∧ v.pw.cap = s.pw.cap ||| BitVec.ofNat 8 (2 ^ k.val) ∧ v.pw.capAt[k] = s.now ∧ (v.reg 0x40010028).getLsbD 1 = true
      ∧ v.opOf k.val = (if s.opOf k.val = 5 then 4 else s.opOf k.val) ∧ (∀ j : Fin 8, j ≠ k → v.opOf j.val = s.opOf j.val)
      ∧ s.OnlyLines v ∧ v.mem = s.mem ∧ ((s.reg 0x4001002C).getLsbD 1 = true → ∀ h, (v.hearth h).icpend.getLsbD 13 = true))
  ∧ (∀ (s : State) (k : Fin 8), s.now < s.pw.capAt[k] + 1000000 → exec (.rel k) s = .next s)
  ∧ (∀ (s : State) (k : Fin 8), s.Inv → s.pw.cap.getLsbD k.val = true → s.OpsSettled k → s.pw.st < 2 → s.pw.capAt[k] + 1000000 ≤ s.now →
    ∃ v, exec (.rel k) s = .next v ∧ v.pw.cap = s.pw.cap &&& ~~~(BitVec.ofNat 8 (2 ^ k.val)) ∧ (v.reg 0x40010028).getLsbD 2 = true
      ∧ s.OnlyLines v ∧ v.mem = s.mem
      ∧ (s.opReq k.val = s.opOf k.val → v.pw.chg = none ∧ v.opOf k.val = s.opOf k.val)
      ∧ (s.opReq k.val = 5 → s.opOf k.val < 5 → (v.opOf k.val = 5 ∧ v.pw.chg = none) ∨ ∃ c, v.pw.chg = some c ∧ c.stack = k ∧ c.op = 5))
  ∧ (∀ s : State, s.Inv → ∃ v, exec .backBias s = .next v ∧ v = { s with regs := v.regs, free := s.free + 1 }
      ∧ (v.reg 0x4001001C).toNat < 2 ^ 16 ∧ ∀ a, a ≠ 0x4001001C → v.reg a = s.reg a)

/-- Every hearth of a stack is halted, held or waiting in SLEEP, with an empty store buffer and no far access. -/
def Sys2Proof.Machine.State.StackSleeps (s : State) (k : Nat) : Prop :=
  ∀ h : Hid, h.val / 8 = k → ((s.hearth h).run ≠ .running ∨ ∃ d, (s.hearth h).wait = .sleep d) ∧ (s.hearth h).sb = [] ∧ (s.hearth h).ottUsed = 0

/-- Link, bellows, staging, reblock, damper edit and flash command are at rest. -/
def Sys2Proof.Machine.State.DeepRest (s : State) : Prop :=
  s.lk.tags = [] ∧ (∀ p : Fin 4, (s.lk.ports[p]).replay = []) ∧ (∀ e : Fin 2, (s.bel[e]).phase = .idle) ∧ s.pat.stage = none
    ∧ (s.reg 0x400B003C).getLsbD 0 = false ∧ (s.reg 0x40050054).getLsbD 0 = false ∧ s.pat.qcmd = none

/-- No level source of Table PW-7 that the state shows is there and enabled: the alarm, GPIO0 to GPIO3 as levels. -/
def Sys2Proof.Machine.State.NoWakeLevel (s : State) : Prop :=
  ((s.reg 0x40100014).getLsbD 1 = false ∨ (s.reg 0x40100028).getLsbD 31 = false
    ∨ (s.pw.lf = true ∧ s.anow < (s.reg 0x40100024).toNat + fld (s.reg 0x40100028) 0 16 * 2 ^ 32))
  ∧ ∀ i < 4, (s.reg 0x40100014).getLsbD (4 + i) = false ∨ (s.reg 0x40100014).getLsbD (8 + i) = true
    ∨ s.host.gpin.getLsbD i ≠ (s.reg 0x40100014).getLsbD (12 + i)

/-- R468 to R471, Table PW-6: a sleep request in Blaze. Where every island asked accepts, the device is in the state named: for
Ember and Cold the front end has stopped, SLEEP is latched in every output and every port is DOWN; a level source that is there
wakes it at once. The first stack that denies keeps the request waiting; with SLPTO over, it ends with REFUSER and REF, in Blaze. -/
def Sys2Proof.Machine.SleepRequestsAskTheIslands : Prop :=
  (∀ (s : State) (w : Who) (x : Word), s.Inv → s.ReachesGs w 0x40010020 → x.getLsbD 31 = true → s.pw.st = 0 → s.pw.sleep = none →
    (fld x 0 2 = 1 → s.NoWakeLevel → (∀ k < 8, s.StackSleeps k) → ∃ v, exec (.sleepRequest w x) s = .next v ∧ v.pw.st = 1 ∧ v.pw.sleep = none
        ∧ v.mem = s.mem ∧ v.hearths = s.hearths ∧ v.dm = s.dm ∧ v.afe = s.afe ∧ v.lk = s.lk)
    ∧ (∀ i < 4, fld x 0 2 = 1 → (∀ k < 8, s.StackSleeps k) → (s.reg 0x40100014).getLsbD (4 + i) = true →
        (s.reg 0x40100014).getLsbD (8 + i) = false → s.host.gpin.getLsbD i = (s.reg 0x40100014).getLsbD (12 + i) →
        ∃ v, exec (.sleepRequest w x) s = .next v ∧ v.pw.st = 0 ∧ v.pw.sleep = none ∧ (v.reg 0x40100018).getLsbD (4 + i) = true
          ∧ v.reg 0x40100010 = 1 ∧ v.mem = s.mem)
    ∧ ((fld x 0 2 = 2 ∨ fld x 0 2 = 3) → s.NoWakeLevel → (∀ k < 8, s.StackSleeps k) → s.DeepRest →
        ∃ v, exec (.sleepRequest w x) s = .next v ∧ v.pw.st = fld x 0 2 ∧ v.pw.sleep = none
          ∧ v.afe.off = true ∧ (∀ p : Fin 4, ¬ (1 ≤ v.portState p ∧ v.portState p ≤ 5))
          ∧ ((∀ p : Fin 4, s.portState p = 0 ∨ s.portState p = 6) → v.mem = s.mem ∧ s.OnlyLines v)
          ∧ ∀ o : Fin 96, (v.dm.out[o]).mask.getLsbD 13 = true ∧ ((s.dm.out[o]).mask.getLsbD 13 = false → (v.dm.out[o]).win = none))
    ∧ (∀ h : Hid, fld x 0 2 ≠ 0 → h.val < 8 → (s.hearth h).run = .running → (∀ d, (s.hearth h).wait ≠ .sleep d) →
        (∀ g : Hid, g.val < h.val → (s.hearth g).run ≠ .running ∨ ∃ d, (s.hearth g).wait = .sleep d) →
        (fld x 8 16 ≠ 0 → ∃ v, exec (.sleepRequest w x) s = .next v ∧ v.pw = { s.pw with sleep := some (fld x 0 2, 0, s.now), edges := [] }
            ∧ v.mem = s.mem ∧ v.hearths = s.hearths)
        ∧ (fld x 8 16 = 0 → ∃ v, exec (.sleepRequest w x) s = .next v ∧ v.pw.st = 0 ∧ v.pw.sleep = none
            ∧ v.reg 0x40010024 = BitVec.ofNat 32 (0x101 + h.val * 0x10000) ∧ (v.reg 0x40010028).getLsbD 0 = true ∧ v.mem = s.mem)))

/-- Source `n` is one of the pins GPIO0 to GPIO3, as an edge, or as a level that is there (Table PW-12). -/
def Sys2Proof.Machine.State.PinWakes (s : State) (n : Nat) : Prop :=
  4 ≤ n ∧ n ≤ 7 ∧ ((s.reg 0x40100014).getLsbD (4 + n) = true ∨ s.host.gpin.getLsbD (n - 4) = (s.reg 0x40100014).getLsbD (8 + n))

/-- R471 to R473, Table PW-7: a source that is enabled and wakes from the state the device is in brings it back to Blaze, with
AWKSRC, ONSTATE, WAKE and doorbell 63 of the GS supervisor hearth, and every hearth goes on as it stopped; from Cold the device
starts as after a reset. A source that is not enabled changes nothing, and one that comes during an entry is held. The alarm is
source 1. Four attempts failed: Cold. -/
def Sys2Proof.Machine.WakesRestoreTheDevice : Prop :=
  (∀ (s : State) (n : Nat), s.Inv → (s.pw.st = 1 ∨ s.pw.st = 2) → (s.reg 0x40100014).getLsbD n = true → n < 32 →
    (n = 0 ∨ s.PinWakes n ∨ (n = 16 ∧ s.pw.st = 2 ∧ ∃ p : Fin 4, (s.portCfg p).getLsbD 0 = true) ∨ (n = 17 ∧ ∃ t, (17, t) ∈ s.pw.edges)
      ∨ (n = 18 ∧ s.pw.st = 1) ∨ (n = 19 ∧ s.pw.st = 1 ∧ ∃ h, (s.hearth h).icpend &&& s.reg 0x40010040 ≠ 0)) →
    ∃ v, exec (.wake n) s = .next v ∧ v.pw.st = 0 ∧ v.reg 0x40100018 = BitVec.ofNat 32 (2 ^ n) ∧ v.reg 0x40100010 = BitVec.ofNat 32 s.pw.st
      ∧ (v.reg 0x40010028).getLsbD 3 = true ∧ v.mem = s.mem
      ∧ (s.pw.st = 2 → v.dm.slp = false ∧ v.ep.lock = false)
      ∧ (∀ h, v.hearth h = { s.hearth h with
          doorbell := if (s.hearth h).gsh then (s.hearth h).doorbell ||| BitVec.ofNat 64 (2 ^ 63) else (s.hearth h).doorbell
          icpend := (v.hearth h).icpend }))
  ∧ (∀ (s : State) (n : Nat), s.Inv → s.pw.st = 3 → (s.reg 0x40100014).getLsbD n = true → (n = 0 ∨ s.PinWakes n) →
    ∃ v, exec (.wake n) s = .next v ∧ v.pw.st = 0 ∧ v.pw.booted = false ∧ v.pw.rst = some s.now ∧ (v.reg 0x40100004).getLsbD 6 = true
      ∧ v.reg 0x40100018 = BitVec.ofNat 32 (2 ^ n) ∧ v.reg 0x40100010 = 3 ∧ v.sec.cycle = s.sec.cycle
      ∧ ∀ a, 0x20000000 ≤ a → a < 0x21400000 → v.byte a = 0)
  ∧ (∀ (s : State) (n : Nat), ((s.reg 0x40100014).getLsbD n = false ∧ s.pw.st ≠ 0) ∨ (s.pw.st = 0 ∧ s.pw.sleep = none) →
    exec (.wake n) s = .next s)
  ∧ (∀ (s : State) (n : Nat), s.pw.st = 0 → s.pw.sleep ≠ none → (n = 0 ∨ s.PinWakes n) →
    exec (.wake n) s = .next { s with pw := { s.pw with edges := s.pw.edges ++ [(n, s.now)] } })
  ∧ (∀ s : State, exec .aonAlarm s = exec (.wake 1) s
    ∧ ((s.reg 0x40100028).getLsbD 31 = false → exec .aonAlarm s = .next s)
    ∧ (s.Inv → s.pw.st = 1 → (s.reg 0x40100014).getLsbD 1 = true → (s.reg 0x40100028).getLsbD 31 = true → s.reg 0x40100024 = 0 →
        fld (s.reg 0x40100028) 0 16 = 0 → ∃ v, exec .aonAlarm s = .next v ∧ v.pw.st = 0 ∧ v.reg 0x40100018 = 2 ∧ v.mem = s.mem))
  ∧ (∀ (s : State) (f : Bool), s.Inv → (s.pw.st = 2 ∨ s.pw.st = 3 →
      ∃ v, exec (.wakefail f) s = .next v ∧ v.pw.st = 3 ∧ v.pw.vin = 0 ∧ v.mem = s.mem ∧ v.hearths = s.hearths
        ∧ v.reg 0x4010000C = (if f then 3 else 1))
    ∧ (s.pw.st < 2 → exec (.wakefail f) s = .next s))

/-- R468 to R473: entering the sleep states and waking from them. -/
def Obligations.SleepIsEnteredAndLeft : Prop := SleepRequestsAskTheIslands ∧ WakesRestoreTheDevice

/-! ## Start-up, resets and supply monitors (16, 17) -/

/-- What the memory keeps over a device reset (Table PW-10): the flash always; unless the device comes from Cold, all but the
working copies and the sample pages. -/
def Sys2Proof.Machine.Survives (cold : Bool) (a : Nat) : Prop :=
  (0x200000000 ≤ a ∧ a < 0x300000000) ∨ (cold = false ∧ 0x40051000 ≤ a ∧ a < 0x40053000)
  ∨ (cold = false ∧ ¬ (0x110000000 ≤ a ∧ a < 0x120000000) ∧ ¬ (0x40000000 ≤ a ∧ a < 0x50000000))

/-- A register held in the always-on island. -/
def Sys2Proof.Machine.AonKept (a : Nat) : Prop := (0x40100000 ≤ a ∧ a < 0x40110000) ∨ a = 0x400B0010 ∨ a = 0x400C0018 ∨ a = 0x400C001C

/-- A device reset has begun: every island but the always-on one is as after reset, every output is quenched by RESET, the fuses
stay, a port that is up sends DOWN with cause 2, and memory keeps what survives, with V of every frame header 0. -/
def Sys2Proof.Machine.ResetTo (s v : State) (por cold : Bool) : Prop :=
  v.pw.rst = some s.now ∧ v.pw.booted = false ∧ v.pw.st = 0 ∧ v.pw.sleep = none ∧ v.pw.chg = none ∧ v.hearths = State.reset.hearths
    ∧ v.lk = { State.reset.lk with ports := v.lk.ports }
    ∧ (∀ p : Fin 4, v.lk.ports[p] = { Port.reset with cut := (s.lk.ports[p]).cut, ctlOut := (v.lk.ports[p]).ctlOut }
        ∧ (v.lk.ports[p]).ctlOut = (s.lk.ports[p]).ctlOut ++ (if s.portUp p = true ∧ por = false then [ctlWord 0x09 2] else []))
    ∧ v.hub = State.reset.hub ∧ v.ep = State.reset.ep ∧ v.xb = State.reset.xb ∧ v.bel = State.reset.bel
    ∧ v.dg = State.reset.dg ∧ v.felt = State.reset.felt ∧ v.pat = State.reset.pat ∧ v.stks = State.reset.stks ∧ v.hrst = 0
    ∧ v.sec = { State.reset.sec with cycle := s.sec.cycle, rev := s.sec.rev, chal := v.sec.chal } ∧ v.pending = s.pending ∧ v.now = s.now
    ∧ (∀ o : Fin 96, (v.dm.out[o]).mask.getLsbD 14 = true ∧ (v.dm.out[o]).win = none)
    ∧ (∀ a, AonKept a → a ≠ 0x40100004 → v.reg a = if por then regDefault a else s.reg a)
    ∧ (∀ a, ¬ AonKept a → (a < 0x40050000 ∨ 0x40060000 ≤ a) → v.reg a = regDefault a)
    ∧ ((∀ k : Fin 8, (s.stks[k]).patch = []) → (∀ t : Fin 19, s.xb.busy[t] = none) → ∀ a,
        (Survives cold a → (∀ f h, a ≠ frameKey f h 6) → v.byte a = s.byte a)
        ∧ (¬ Survives cold a → v.byte a = memDefault a)
        ∧ (cold = false → (∃ f h, a = frameKey f h 6) → v.byte a = s.byte a &&& 0xFE))

/-- R477 to R481, Tables PW-9 and PW-10: each kind of device reset, recorded in its bits of RSTCAUSE; a BOR by VIN_PG only in
Blaze or Banked; SWR only for its key; a draught's 100 us after its expiry. The reset ends after 10 us. -/
def Sys2Proof.Machine.DeviceResetsKeepWhatSurvives : Prop :=
  (∀ s : State, s.Inv → ∃ v, exec .por s = .next v ∧ ResetTo s v true true ∧ v.reg 0x40100004 = 1)
  ∧ (∀ s : State, s.Inv → ∃ v, exec .pinReset s = .next v ∧ ResetTo s v false false ∧ v.reg 0x40100004 = s.reg 0x40100004 ||| 4)
  ∧ (∀ s : State, s.Inv → ∃ v, exec (.bor false) s = .next v ∧ ResetTo s v false false ∧ v.reg 0x40100004 = s.reg 0x40100004 ||| 2)
  ∧ (∀ s : State, s.Inv → s.pw.st < 2 → ∃ v, exec (.bor true) s = .next v ∧ ResetTo s v false false
      ∧ v.reg 0x40100004 = s.reg 0x40100004 ||| 0x82)
  ∧ (∀ s : State, 2 ≤ s.pw.st → exec (.bor true) s = .next s)
  ∧ (∀ (s : State) (w : Who) (x : Word), s.Inv → s.ReachesGs w 0x40010030 →
    (x = 0x5352 → ∃ v, Accepted (.swr w x) s v ∧ ResetTo s v false false ∧ v.reg 0x40100004 = s.reg 0x40100004 ||| 0x10)
    ∧ (x ≠ 0x5352 → Accepted (.swr w x) s s))
  ∧ (∀ (s : State) (d : Draught) (t : Nat), s.Inv → (s.dg[dgIx d]).exp = some t → (d = .g ∨ (s.reg (dgBase d)).getLsbD 2 = true) →
    (t + 100000 ≤ s.now → ∃ v, exec (.draughtReset d) s = .next v ∧ ResetTo s v false false
      ∧ v.reg 0x40100004 = s.reg 0x40100004 ||| 8)
    ∧ (s.now < t + 100000 → exec (.draughtReset d) s = .next s))
  ∧ (∀ s : State, s.Inv → s.pw.st = 3 → (s.reg 0x40100014).getLsbD 0 = true → ∃ v u, exec (.wake 0) s = .next v ∧ ResetTo s u false true
      ∧ u.reg 0x40100004 = s.reg 0x40100004 ||| 0x40 ∧ v = { u with regs := v.regs } ∧ v.reg 0x40100018 = 1 ∧ v.reg 0x40100010 = 3)
  ∧ (∀ (s : State) (t : Nat), s.pw.rst = some t → ∃ v, exec .deviceReset s = .next v ∧ v.pw = { s.pw with rst := none }
      ∧ v.now = max s.now (t + 10000) ∧ v.td = 0 ∧ v.mem = s.mem ∧ s.OnlyLines v)

/-- R479, R480, R426: HRST resets the registers of one hearth, held, or running from START of the active entry table, and frees
its far accesses and hob locks; memory, but for a compute it ends, and the registers of other hearths stay. During a device reset it has no effect. -/
def Sys2Proof.Machine.HearthResetResetsOneHearth : Prop :=
  ∀ (s : State) (w : Who) (x : Word) (h : Hid), s.Inv → s.ReachesGs w 0x40010034 → h.val = fld x 0 6 →
    (s.pw.booted = true → (s.stks[h.val / 8]'(by omega)).patch = [] → ∃ v, exec (.hrst w x) s = .next v
      ∧ ((s.hearth h).computing = false → v.mem = s.mem)
      ∧ v.hearth h = { Hearth.reset with
          run := if x.getLsbD 8 then .held else .running
          pc := s.entStart s.blksel h
          gsh := s.entGsh s.blksel h
          redN := (s.hearth h).redN
          redOld := (v.hearth h).redOld
          icpend := (v.hearth h).icpend }
      ∧ v.hrst.getLsbD h.val = x.getLsbD 8 ∧ (∀ n : Fin 64, s.hub.locks[n] = some h.val → v.hub.locks[n] = none)
      ∧ (∀ g, g ≠ h → (v.hearth g).run = (s.hearth g).run ∧ (v.hearth g).pc = (s.hearth g).pc ∧ (v.hearth g).g = (s.hearth g).g
          ∧ (v.hearth g).sp = (s.hearth g).sp ∧ (v.hearth g).acc = (s.hearth g).acc))
    ∧ (s.pw.booted = false → Accepted (.hrst w x) s s)

/-- R423, R461, R474, R475, Table PW-8: a VDD_IO warning latches BOW in every output, makes line 31 pending on the GS supervisor
hearth and counts; its recovery starts the 100 us; VDD_AFE low stops conversions; VDD_LNK low takes every port down; the loss
of the reference sets REFLOST and UNLOCK, takes the ports down and puts the damper on its backup oscillator; the always-on
crystal likewise sets LFLOST. -/
def Sys2Proof.Machine.SupplyAndClockMonitorsAct : Prop :=
  (∀ s : State, s.Inv → ∃ v, exec .bow s = .next v ∧ v.dm.bow = true ∧ v.dm.bowAct = true ∧ v.mem = s.mem ∧ s.OnlyLines v
      ∧ (∀ o : Fin 96, (v.dm.out[o]).mask.getLsbD 6 = true ∧ ((s.dm.out[o]).mask.getLsbD 6 = false → (v.dm.out[o]).win = none))
      ∧ (∀ h, (s.hearth h).gsh = true → (v.hearth h).icpend.getLsbD 31 = true ∧ (v.hearth h).nmi31 = true)
      ∧ v.reg 0x40100008 = satInc (s.reg 0x40100008))
  ∧ (∀ s : State, (s.dm.bow = true → exec .bowRecovery s = .next { s with dm := { s.dm with bow := false, bowAt := s.dnow } })
      ∧ (s.dm.bow = false → exec .bowRecovery s = .next s))
  ∧ (∀ s : State, exec .vddAfeLow s = .next { s with pw := { s.pw with afeLow := true }, afe := { s.afe with off := true } }
      ∧ (s.pw.st ≠ 2 → exec .vddAfeRecovery s = .next { s with pw := { s.pw with afeLow := false }, afe := { s.afe with off := false } })
      ∧ (s.pw.st = 2 → exec .vddAfeRecovery s = .next { s with pw := { s.pw with afeLow := false } }))
  ∧ (∀ s : State, (∃ v, exec .vddLnkLow s = .next v ∧ ∀ p : Fin 4, ¬ (1 ≤ v.portState p ∧ v.portState p ≤ 5))
      ∧ ((∀ p : Fin 4, s.portState p = 0 ∨ s.portState p = 6) → exec .vddLnkLow s = .next s))
  ∧ (∀ s : State, s.Inv → s.pw.ref = true → ∃ v, exec .referenceLoss s = .next v ∧ v.pw.ref = false ∧ v.dm.bk = true ∧ v.ep.lock = false
      ∧ (v.reg 0x40020004).getLsbD 0 = true ∧ (v.reg 0x40020004).getLsbD 2 = true
      ∧ (∀ p : Fin 4, ¬ (1 ≤ v.portState p ∧ v.portState p ≤ 5)) ∧ ∀ o, s.oMode o = 3 → (v.dm.out[o]).win = none)
  ∧ (∀ s : State, s.pw.ref = false → ∃ v, exec .referenceReturn s = .next v ∧ v.pw = { s.pw with ref := true } ∧ v.dm.bk = false
      ∧ v.mem = s.mem ∧ s.OnlyLines v)
  ∧ (∀ s : State, (s.pw.ref = false → exec .referenceLoss s = .next s) ∧ (s.pw.ref = true → exec .referenceReturn s = .next s)
      ∧ (s.pw.lf = false → exec .lfLoss s = .next s) ∧ (s.pw.lf = true → exec .lfReturn s = .next s))
  ∧ (∀ s : State, s.Inv → (s.pw.lf = true → ∃ v, exec .lfLoss s = .next v ∧ v.pw.lf = false ∧ (v.reg 0x40020004).getLsbD 1 = true
        ∧ v.mem = s.mem ∧ v.hearths = s.hearths)
      ∧ (s.pw.lf = false → ∃ v, exec .lfReturn s = .next v ∧ v.pw.lf = true ∧ v.mem = s.mem ∧ v.hearths = s.hearths ∧ v.regs = s.regs))

/-- In Hold: the loader stands in bank 0 of stack 0 and hearth 0 runs it in GS; every other hearth is held; the clocks run. -/
def Sys2Proof.Machine.InHold (s v : State) : Prop :=
  v.pw.hold = true ∧ v.pw.booted = true ∧ v.hrst = 0 ∧ v.pw.ref = true ∧ v.pw.lf = true ∧ v.dm.bk = false
    ∧ (∀ a, 0x30000000 ≤ a → a < 0x30010000 → v.byte a = s.byte (0x11000000 + (a - 0x30000000)))
    ∧ (∀ h : Hid, (v.hearth h).run = if h = 0 then .running else .held) ∧ (v.hearth 0).mode = .gs ∧ (v.hearth 0).ml = 0

/-- Every byte outside the loader's place is as before. -/
def Sys2Proof.Machine.HoldKeeps (s v : State) : Prop := ∀ a, ¬ (0x30000000 ≤ a ∧ a < 0x30010000) → v.byte a = s.byte a

/-- The `n`-th reading of slot `b` goes without a flash error before byte `k`. -/
def Sys2Proof.Machine.ReadTo (n k : Nat) : Prop := ∀ f, Config.flashFail n = some f → k ≤ f

/-- Slot `b`, read as the `n`-th reading, fails with a code at an offset: by its header, by a check of stage 6, or by a flash error. -/
def Sys2Proof.Machine.State.SlotBad (s : State) (b : Bool) (n c o : Nat) : Prop :=
  (s.headErr b = some (c, o) ∧ (slotThere b = false ∨ ReadTo n 256))
  ∨ (s.headErr b = none ∧ ReadTo n (s.patLen b) ∧ s.bodyErr b = some (c, o))
  ∨ (slotThere b = true ∧ Config.flashFail n = some o ∧ c = 0x0D ∧ (o < 256 ∨ (s.headErr b = none ∧ o < s.patLen b)))

/-- Which reading is that of slot `b`: the slot that PREF names comes first. -/
def Sys2Proof.Machine.State.readingOf (s : State) (b : Bool) : Nat := s.railsUp.free + (if (s.reg 0x400B0010).getLsbD 0 = b then 0 else 1)

/-- R425, R426, R429, R436 to R439, Table PA-7: start-up. In a life cycle other than FACTORY and DEPLOYED the device enters Hold
with LIFECYCLE in both errors. Else the slot that PREF names, or the other where that one fails, becomes the active block with
its BID, class, programs and entries: every hearth with RUN goes from START in GS, the others stay held, and REMAP is set. With
both failing it is Hold, with code and offset of each. Where the loader starts is left out, the model's choice (log entry 3). -/
def Sys2Proof.Machine.StartUpLoadsASlotOrHolds : Prop :=
  (∀ s : State, s.pw.booted = true ∨ s.pw.rst ≠ none ∨ s.pw.st ≠ 0 → exec .startUp s = .next s)
  ∧ (∀ s : State, s.Inv → s.pw.booted = false → s.pw.rst = none → s.pw.st = 0 →
    (s.sec.cycle ≠ 1 → s.sec.cycle ≠ 2 → ∃ v, exec .startUp s = .next v ∧ InHold s v ∧ HoldKeeps s v
      ∧ v.reg 0x400B0008 = 0x0C ∧ v.reg 0x400B000C = 0x0C)
    ∧ (∀ a oa b ob, (s.sec.cycle = 1 ∨ s.sec.cycle = 2) → s.SlotBad false (s.readingOf false) a oa → s.SlotBad true (s.readingOf true) b ob →
      ∃ v, exec .startUp s = .next v ∧ InHold s v ∧ (s.headErr false ≠ none → s.headErr true ≠ none → HoldKeeps s v) ∧ v.reg 0x400B0008 = BitVec.ofNat 32 (a % 2 ^ 8 + oa % 2 ^ 24 * 2 ^ 8)
        ∧ v.reg 0x400B000C = BitVec.ofNat 32 (b % 2 ^ 8 + ob % 2 ^ 24 * 2 ^ 8))
    ∧ (∀ b : Bool, (s.sec.cycle = 1 ∨ s.sec.cycle = 2) → s.headErr b = none → s.bodyErr b = none → ReadTo (s.readingOf b) (s.patLen b) →
      ((s.reg 0x400B0010).getLsbD 0 = b ∨ ∃ c o, s.SlotBad (!b) (s.readingOf (!b)) c o) →
      ∃ v, exec .startUp s = .next v ∧ v.pw.booted = true ∧ v.pw.hold = s.pw.hold ∧ v.xb.released = true ∧ v.remap = true
        ∧ v.pat.bslot = b ∧ v.pat.aslot = b ∧ v.bank = 0 ∧ v.blksel = false ∧ v.dset = false ∧ v.mtab = false
        ∧ v.lc = BitVec.ofNat 2 (s.patLc b) ∧ v.reg 0x400B0014 = s.patW b 0x14
        ∧ v.pw.ref = true ∧ v.pw.lf = true ∧ v.dm.bk = false ∧ v.hrst = 0
        ∧ (∀ x ∈ s.sects b, x.ty = 3 → ∀ i < x.size, v.byte (progKey (fin 8 x.index) 0 i) = s.byte (flashKey (slotBase b + x.off + i)))
        ∧ ∀ h, (v.hearth h).run = (if v.entRun false h then .running else .held) ∧ (v.hearth h).pc = v.entStart false h
          ∧ (v.hearth h).mode = .gs ∧ (v.hearth h).ml = 0 ∧ (v.hearth h).gsh = v.entGsh false h))

/-- R425 to R439, R461, R474 to R481: start-up, the resets and what survives them, the supply and clock monitors. -/
def Obligations.ResetsAndStartUpFollowTheirTables : Prop :=
  DeviceResetsKeepWhatSurvives ∧ HearthResetResetsOneHearth ∧ SupplyAndClockMonitorsAct ∧ StartUpLoadsASlotOrHolds

/-! ## Ethernet and the IEEE 1588 clock (18) -/

/-- `n` bytes from `a` lie in system SRAM. -/
def Sys2Proof.Machine.InSram (a n : Nat) : Prop := 0x10000000 ≤ a ∧ a + n ≤ 0x10200000

/-- The target of system SRAM is there and free, and no reset has been asked for. -/
def Sys2Proof.Machine.State.SramOpen (s : State) : Prop := s.targetOff 0 = false ∧ s.Open 0 ∧ s.pw.ask = none

/-- The address of the next descriptor of a ring: 16 bytes each from the base in the register at `r`. -/
def Sys2Proof.Machine.State.descOf (s : State) (r i : Nat) : Nat := (s.reg r).toNat / 16 * 16 + 16 * i

/-- R485 to R487, Table HS-1, on rings and buffers in system SRAM: a good frame goes without its FCS into the buffer of the next
receive descriptor that the MAC owns, which gets its length and is handed back, with a timestamp where TS asks; with no such
descriptor RXOVF is set and the frame dropped; a bad FCS is only counted. ETHTXGO starts the transmit ring: a frame whose descriptor
the MAC owns leaves with its FCS and hands it back; one it does not own ends the run. WRAP leads back to the base. -/
def Sys2Proof.Machine.FramesMoveThroughTheRings : Prop :=
  (∀ (s : State) (f : List Byte) (n a b : Nat) (d : Word), s.Inv → (s.reg 0x400D0000).getLsbD 0 = true → s.pw.st < 2 → f.length = n + 4 →
    n + 4 ≤ 1522 → s.SramOpen → s.host.stop = false → leNat (f.drop n) = (crc32 (f.take n)).toNat →
    a = s.descOf 0x400D0010 s.host.rxAt → InSram a 16 → d = s.rd32 (a + 4) → b = (s.rd32 a).toNat →
    (d.getLsbD 16 = true → InSram b n → (b + n ≤ a ∨ a + 16 ≤ b) →
      ∃ v, exec (.ethReceive f) s = .next v ∧ v.bytes b n = f.take n ∧ fld (v.rd32 (a + 4)) 0 11 = n
        ∧ (v.rd32 (a + 4)).getLsbD 16 = false ∧ (v.rd32 (a + 4)).getLsbD 18 = false ∧ (v.rd32 (a + 4)).getLsbD 19 = d.getLsbD 19
        ∧ (v.rd32 (a + 4)).getLsbD 17 = ((s.reg 0x400D0000).getLsbD 5 || isPtp (f.take n))
        ∧ v.host = { s.host with rxAt := if d.getLsbD 19 then 0 else s.host.rxAt + 1, ptp := v.host.ptp, ptpAt := v.host.ptpAt, ptpUp := v.host.ptpUp }
        ∧ (v.reg 0x400D001C).getLsbD 0 = true ∧ s.OnlyLines v
        ∧ (∀ x, (x < b ∨ b + n ≤ x) → (x < a + 4 ∨ a + 16 ≤ x) → v.byte x = s.byte x))
    ∧ (d.getLsbD 16 = false → ∃ v, exec (.ethReceive f) s = .next v ∧ v.mem = s.mem ∧ v.host = s.host ∧ (v.reg 0x400D001C).getLsbD 2 = true
        ∧ s.OnlyLines v))
  ∧ (∀ (s : State) (f : List Byte), s.Inv → (s.reg 0x400D0000).getLsbD 0 = true → s.pw.st < 2 → f.length ≤ 1522 →
    (f.length < 4 ∨ leNat (f.drop (f.length - 4)) ≠ (crc32 (f.take (f.length - 4))).toNat) →
    ∃ v, exec (.ethReceive f) s = .next v ∧ v = { s with regs := v.regs } ∧ v.reg 0x400D0024 = satInc (s.reg 0x400D0024)
      ∧ ∀ x, x ≠ 0x400D0024 → v.reg x = s.reg x)
  ∧ (∀ (s : State) (w : Who), s.ReachesGs w 0x400D0018 → Accepted (.ethtxgo w) s { s with host := { s.host with txGo := true } })
  ∧ (∀ (s : State) (n a b : Nat) (d : Word), s.Inv → (s.reg 0x400D0000).getLsbD 1 = true → s.pw.st < 2 → s.host.txGo = true →
    s.host.stop = false → s.SramOpen → a = s.descOf 0x400D0014 s.host.txAt → InSram a 16 → d = s.rd32 (a + 4) →
    b = (s.rd32 a).toNat → n = fld d 0 11 →
    (d.getLsbD 16 = true → d.getLsbD 17 = false → InSram b n →
      ∃ v, exec .ethTransmitDone s = .next v ∧ v.rd32 (a + 4) = d &&& ~~~0x10000 ∧ (v.reg 0x400D001C).getLsbD 1 = true
        ∧ v.host = { s.host with
            txAt := if d.getLsbD 19 then 0 else s.host.txAt + 1
            out := s.host.out ++ [(0, 0, s.bytes b n ++ leBytes 4 (crc32 (s.bytes b n)).toNat)] }
        ∧ s.OnlyLines v ∧ (∀ x, (x < a + 4 ∨ a + 8 ≤ x) → v.byte x = s.byte x))
    ∧ (d.getLsbD 16 = false → exec .ethTransmitDone s = .next { s with host := { s.host with txGo := false } }))
  ∧ (∀ s : State, s.host.txGo = false → exec .ethTransmitDone s = .next s)

/-- R485, R487: ETHMDIO starts a management transaction and a read leaves its data there when it is done. A step of the clock is
taken at the next 40 ns; each 40 ns of the reference add 40 ns and the held PTPADJ; a read of its ns latches its seconds. -/
def Sys2Proof.Machine.ManagementAndTimeOfTheMac : Prop :=
  (∀ (s : State) (w : Who) (x : Word), s.Inv → s.ReachesGs w 0x400D0028 → ∃ v, Accepted (.ethmdio w x) s v
      ∧ v = { s with regs := v.regs, host := { s.host with mdio := true, out := v.host.out } } ∧ (∀ a, a ≠ 0x400D0028 → v.reg a = s.reg a)
      ∧ v.host.out = (if s.host.mdio then s.host.out else s.host.out ++ [(4, fld x 26 1,
          [BitVec.ofNat 8 (fld x 21 5), BitVec.ofNat 8 (fld x 16 5)] ++ (if x.getLsbD 26 then [] else leBytes 2 (fld x 0 16)))]))
  ∧ (∀ (s : State) (d : Half), s.Inv →
    (s.host.mdio = true → ∃ v, exec (.mdioDone d) s = .next v ∧ v = { s with regs := v.regs, host := { s.host with mdio := false } }
      ∧ fld (v.reg 0x400D0028) 0 16 = (if (s.reg 0x400D0028).getLsbD 26 then d.toNat else fld (s.reg 0x400D0028) 0 16)
      ∧ ∀ a, a ≠ 0x400D0028 → v.reg a = s.reg a)
    ∧ (s.host.mdio = false → exec (.mdioDone d) s = .next s))
  ∧ (∀ (s : State) (w : Who) (sec : Bool) (x : Word), s.ReachesGs w (if sec then 0x400D0054 else 0x400D0050) → s.now < s.host.ptpAt + 40 →
    Accepted (.ptpstep w sec x) s
      { s with host := { s.host with ptpUp := s.host.ptpUp + x.toInt * (if sec then 1000000000 else 1) * 2 ^ 32 } })
  ∧ (∀ (s : State) (w : Who) (n : Nat) (r : Int) (t : Nat), s.Inv → s.Reaches w 0x400D0040 false → s.pw.ref = true → s.pw.st < 2 →
    s.now = s.host.ptpAt + 40 * n → 0 < n → r = max (-34359738) (min 34359738 (s.reg 0x400D004C).toInt) →
    (t : Int) = (s.host.ptp + n * (40 * 2 ^ 32 + r) + s.host.ptpUp) / 2 ^ 32 % (2 ^ 48 * 1000000000) →
    ∃ v, Answered (.latchingRead w 0x400D0040) s (BitVec.ofNat 32 (t % 1000000000)) v
      ∧ v.reg 0x400D0044 = BitVec.ofNat 32 (t / 1000000000) ∧ v.reg 0x400D0048 = BitVec.ofNat 32 (t / 1000000000 / 2 ^ 32)
      ∧ v.mem = s.mem ∧ v.hearths = s.hearths ∧ v.host.ptpUp = 0 ∧ v.host.ptpAt = s.now)

/-- R485 to R487: the Ethernet block. Buffers without the FCS, the descriptor kept when it is not owned, and where a timestamp is
taken are the model's choice (log entries 16 and 17). -/
def Obligations.EthernetMovesFramesAndTime : Prop := FramesMoveThroughTheRings ∧ ManagementAndTimeOfTheMac

/-! ## USB (18) -/

/-- A change of VBUS is no wake event: in Blaze outside an entry into sleep, or not enabled in a sleep state. -/
def Sys2Proof.Machine.State.VbusWakesNot (s : State) : Prop := (s.pw.st = 0 ∧ s.pw.sleep = none) ∨ (s.pw.st ≠ 0 ∧ (s.reg 0x40100014).getLsbD 18 = false)

/-- R488, R490, R491: a bus reset unconfigures the device, ends a download and a session over USB, and sets its event;
SET_CONFIGURATION configures it; VBUS shows in USBST, and its end does what a bus reset does to session and configuration. -/
def Sys2Proof.Machine.UsbBusEventsAct : Prop :=
  (∀ s : State, s.Inv → ∃ v, exec .usbBusReset s = .next v ∧ v.host.conf = false ∧ v.host.dfu = 0 ∧ (v.reg 0x400E000C).getLsbD 3 = true
      ∧ v.mem = s.mem ∧ s.OnlyLines v ∧ v.host.out = s.host.out
      ∧ ((∃ t, s.host.ksp = some (false, t)) → v.host.ksp = none ∧ v.host.auth = false ∧ (v.reg 0x400E0000).getLsbD 2 = false)
      ∧ ((∀ t, s.host.ksp ≠ some (false, t)) → v.host.ksp = s.host.ksp ∧ v.reg 0x400E0000 = s.reg 0x400E0000))
  ∧ (∀ (s : State) (x : Half), s.usbOn = true →
      exec (.standardRequest 9 x) s = .next { s with host := { s.host with conf := x == 1, dfu := if x = 1 then 2 else 0, dfuSt := 0 } })
  ∧ (∀ (s : State) (r : Byte) (x : Half), r ≠ 9 ∨ s.usbOn = false → exec (.standardRequest r x) s = .next s)
  ∧ (∀ s : State, s.VbusWakesNot → exec (.vbusChange true) s = .next { s with host := { s.host with vbus := true } })
  ∧ (∀ s : State, s.Inv → s.VbusWakesNot → ∃ v, exec (.vbusChange false) s = .next v
      ∧ v.host.vbus = false ∧ v.host.conf = false ∧ v.mem = s.mem ∧ v.hearths = s.hearths ∧ ((∃ t, s.host.ksp = some (false, t)) → v.host.ksp = none))
  ∧ (∀ s : State, s.Inv → s.pw.st = 1 → s.host.vbus = false → (s.reg 0x40100014).getLsbD 18 = true →
      ∃ v, exec (.vbusChange true) s = .next v ∧ v.host.vbus = true ∧ v.pw.st = 0 ∧ v.reg 0x40100018 = 0x40000 ∧ v.mem = s.mem)
  ∧ (∀ s : State, s.pw.st = 0 → s.pw.sleep ≠ none → s.host.vbus = false → exec (.vbusChange true) s =
      .next { s with host := { s.host with vbus := true }, pw := { s.pw with edges := s.pw.edges ++ [(18, s.now)] } })

/-- A CDC ring in system SRAM: its base and its size, 64 bytes to 64 KiB. -/
def Sys2Proof.Machine.State.Ring (s : State) (r b z : Nat) : Prop :=
  b = (s.reg r).toNat / 64 * 64 ∧ z = 2 ^ fld (s.reg r) 0 5 ∧ 6 ≤ fld (s.reg r) 0 5 ∧ fld (s.reg r) 0 5 ≤ 16 ∧ InSram b z ∧ s.SramOpen

/-- R489: a bulk OUT packet that finds room enters the RX ring at its write pointer, which moves behind it, one that does not is
refused; a bulk IN packet takes the oldest bytes of the TX ring, at most 64, and moves the read pointer. -/
def Sys2Proof.Machine.CdcRingsCarryPackets : Prop :=
  (∀ (s : State) (d : List Byte) (b z wp rp : Nat), s.Inv → s.Ring 0x400E0020 b z → s.host.conf = true → s.usbOn = true → d.length ≤ 64 →
    wp = (s.reg 0x400E0024).toNat % z → rp = (s.reg 0x400E0028).toNat % z →
    ((rp + z - 1 - wp) % z < d.length → exec (.bulkOut d) s = .next s)
    ∧ (d.length ≤ (rp + z - 1 - wp) % z → ∃ v, exec (.bulkOut d) s = .next v ∧ v.reg 0x400E0024 = BitVec.ofNat 32 ((wp + d.length) % z)
        ∧ (∀ i < d.length, v.byte (b + (wp + i) % z) = d.getD i 0)
        ∧ (∀ a, (∀ i < d.length, a ≠ b + (wp + i) % z) → v.byte a = s.byte a)
        ∧ (v.reg 0x400E000C).getLsbD 0 = true ∧ v.host = s.host ∧ s.OnlyLines v))
  ∧ (∀ (s : State) (n b z wp rp k : Nat), s.Inv → s.Ring 0x400E0030 b z → s.host.conf = true → s.usbOn = true →
    wp = (s.reg 0x400E0034).toNat % z → rp = (s.reg 0x400E0038).toNat % z → k = min (min n 64) ((wp + z - rp) % z) →
    (k = 0 → exec (.bulkIn n) s = .next s)
    ∧ (k ≠ 0 → ∃ v, exec (.bulkIn n) s = .next v ∧ v.reg 0x400E0038 = BitVec.ofNat 32 ((rp + k) % z) ∧ v.mem = s.mem
        ∧ v.host = { s.host with out := s.host.out ++ [(1, 0, (List.range k).map (fun i => s.byte (b + (rp + i) % z)))] }
        ∧ (v.reg 0x400E000C).getLsbD 1 = true ∧ s.OnlyLines v))

/-- R443, R490, Table PA-7: a DFU download block, in dfuIDLE or during a download, takes the first outcome of the table that holds, or
erases and programs its sector; an empty block ends a download; an upload block leaves with the slot's bytes. In SCRAPPED, or
without a configured device, no block does anything. -/
def Sys2Proof.Machine.DfuReachesTheSlots : Prop :=
  (∀ (s : State) (alt : Bool) (n : Half) (d : List Byte) (a : Nat), s.Inv → s.host.conf = true → s.usbOn = true → s.sec.cycle ≠ 4 → d ≠ [] → d.length ≤ 0x1000 →
    (s.host.dfu = 2 ∨ s.host.dfu = 5) → a = slotBase alt + n.toNat * 0x1000 →
    let may := ((s.reg 0x400E0000).getLsbD 1 = true ∨ s.pw.hold = true) ∧ ¬ (s.sec.cycle = 2 ∧ (s.reg 0x400E0000).getLsbD 2 = false)
    let shut := (s.pw.hold = false ∧ slotBase s.pat.aslot ≤ a ∧ a < slotBase s.pat.aslot + s.patLen s.pat.aslot) ∨ s.pat.stage = some alt
    let out := 0x1000 ≤ n.toNat ∨ Config.flashBytes ≤ a
    (¬ may → exec (.dfuDownload alt n d) s = .next { s with host := { s.host with dfu := 10, dfuSt := 0x0B } })
    ∧ (may → shut → exec (.dfuDownload alt n d) s = .next { s with host := { s.host with dfu := 10, dfuSt := 3 } })
    ∧ (may → ¬ shut → out → exec (.dfuDownload alt n d) s = .next { s with host := { s.host with dfu := 10, dfuSt := 8 } })
    ∧ (may → ¬ shut → ¬ out → ∃ v, exec (.dfuDownload alt n d) s = .next v ∧ v = { s with mem := v.mem, host := { s.host with dfu := 5, dfuSt := 0 } }
        ∧ (∀ i < 0x1000, v.byte (flashKey (a + i)) = d.getD i 0xFF)
        ∧ ∀ k, (k < flashKey a ∨ flashKey a + 0x1000 ≤ k) → v.byte k = s.byte k))
  ∧ (∀ (s : State) (alt : Bool) (n : Half), s.Inv → s.host.conf = true → s.usbOn = true → s.sec.cycle ≠ 4 → s.host.dfu = 5 →
    ∃ v, exec (.dfuDownload alt n []) s = .next v ∧ v.host = { s.host with dfu := 2 } ∧ v.mem = s.mem ∧ (v.reg 0x400E000C).getLsbD 2 = true)
  ∧ (∀ (s : State) (alt : Bool) (n : Half) (k : Nat), s.host.conf = true → s.usbOn = true → s.sec.cycle ≠ 4 → (s.host.dfu = 2 ∨ s.host.dfu = 9) →
    k = min 0x1000 (min 0x1000000 (Config.flashBytes - slotBase alt) - n.toNat * 0x1000) →
    exec (.dfuUpload alt n) s = .next { s with host := { s.host with
      dfu := if k < 0x1000 then 2 else 9
      out := s.host.out ++ [(2, 0, s.bytes (flashKey (slotBase alt + n.toNat * 0x1000)) k)] } })
  ∧ (∀ (s : State) (alt : Bool) (n : Half) (d : List Byte), s.host.conf = false ∨ s.usbOn = false ∨ s.sec.cycle = 4 →
    exec (.dfuDownload alt n d) s = .next s ∧ exec (.dfuUpload alt n) s = .next s)

/-- R488 to R490: the USB device, its CDC rings and DFU. The DFU states and the error outside a download are those of DFU 1.1 (log
entry 19); a packet is refused whole (log entry 18). -/
def Obligations.UsbMovesPacketsAndFirmware : Prop := UsbBusEventsAct ∧ CdcRingsCarryPackets ∧ DfuReachesTheSlots

/-! ## KSP (18) -/

/-- The rows of Table HS-2: command, code, whether Hold serves it (H), whether DEPLOYED asks for AUTH (A). -/
def Sys2Proof.Machine.KspRow (c : Bool → List Byte → Instr) (cmd : Nat) (inHold needs : Bool) : Prop :=
  (c, cmd, inHold, needs) ∈ [(Instr.hello, 0x01, true, false), (.auth, 0x02, true, false), (.mread, 0x10, false, false), (.logread, 0x20, true, false),
   (.fread, 0x30, true, false), (.fwrite, 0x31, true, true), (.stage, 0x32, false, true), (.kspReblock, 0x33, false, true),
   (.calread, 0x40, true, false), (.calwrite, 0x41, true, true), (.lcadv, 0x50, true, false), (.qclear, 0x60, false, true)]

/-- A request reaches a server: after start-up in Blaze, over TCP outside Hold, over USB when it is configured. -/
def Sys2Proof.Machine.State.Hears (s : State) (tcp : Bool) (d : List Byte) : Prop :=
  s.pw.booted = true ∧ s.pw.st = 0 ∧ d.length ≤ 1024 ∧ (if tcp then s.pw.hold = false else s.host.conf = true ∧ s.usbOn = true)

/-- No session is open, or the one of the same transport that has been silent for less than 60 s. -/
def Sys2Proof.Machine.State.SessionFree (s : State) (tcp : Bool) : Prop :=
  s.host.ksp = none ∨ ∃ t, s.host.ksp = some (tcp, t) ∧ s.now < t + 60000000000

/-- The state with the session of a transport at this request. -/
def Sys2Proof.Machine.State.inSession (s : State) (tcp : Bool) : State := { s with host := { s.host with ksp := some (tcp, s.now) } }

/-- The state after the response of a command has left: its code + 0x80, STATUS and payload. -/
def Sys2Proof.Machine.State.replied (s : State) (cmd st : Nat) (pay : List Byte) : State :=
  { s with host := { s.host with out := s.host.out ++ [(cmd + 0x80, st, pay)] } }

/-- A request is let through to its effect: heard, its session free, and neither Hold, SCRAPPED nor a missing AUTH in its way. -/
def Sys2Proof.Machine.State.Serves (s : State) (tcp : Bool) (d : List Byte) (inHold needs : Bool) : Prop :=
  s.Hears tcp d ∧ s.SessionFree tcp ∧ (s.pw.hold = true → inHold = true) ∧ s.sec.cycle ≠ 4
    ∧ (s.sec.cycle = 2 → needs = true → s.host.auth = true)

/-- R491 to R493: a request that nothing serves changes nothing; one from the other transport during a session is answered BUSY, one
that Hold does not serve UNKNOWN, in SCRAPPED any but HELLO REFUSED, in DEPLOYED one marked A without AUTH AUTHREQ; a session
silent for 60 s ends. -/
def Sys2Proof.Machine.KspRefusesByTable : Prop :=
  (∀ c cmd inHold needs, KspRow c cmd inHold needs → ∀ (s : State) (tcp : Bool) (d : List Byte), s.Hears tcp d →
    (∀ t, s.host.ksp = some (!tcp, t) → s.now < t + 60000000000 → exec (c tcp d) s = .next (s.replied cmd 5 []))
    ∧ (s.SessionFree tcp → s.pw.hold = true → inHold = false → exec (c tcp d) s = .next ((s.inSession tcp).replied cmd 2 []))
    ∧ (s.SessionFree tcp → (s.pw.hold = true → inHold = true) → s.sec.cycle = 4 → cmd ≠ 1 →
        exec (c tcp d) s = .next ((s.inSession tcp).replied cmd 4 []))
    ∧ (s.SessionFree tcp → (s.pw.hold = true → inHold = true) → s.sec.cycle = 2 → needs = true → s.host.auth = false →
        exec (c tcp d) s = .next ((s.inSession tcp).replied cmd 3 [])))
  ∧ (∀ c cmd inHold needs, KspRow c cmd inHold needs → ∀ (s : State) (tcp : Bool) (d : List Byte), s.pw.booted = false ∨ s.pw.st ≠ 0 → s.host.ksp = none →
    exec (c tcp d) s = .next s)
  ∧ (∀ (s : State) (tcp : Bool) (t : Nat), s.Inv → s.host.ksp = some (tcp, t) →
    (t + 60000000000 ≤ s.now → ∃ v : State, exec .sessionTimeout s = .next v ∧ v = { s with regs := v.regs, host := { s.host with ksp := none, auth := false, kstg := false } }
      ∧ (v.reg 0x400E0000).getLsbD 2 = false)
    ∧ (s.now < t + 60000000000 → exec .sessionTimeout s = .next s))

/-- The registers that LOGREAD returns, in order. -/
def Sys2Proof.Machine.logAddrs : List Nat :=
  [0x40100004, 0x40100008, 0x4010000C, 0x400C0018, 0x400C001C, 0x400B0008, 0x400B000C, 0x40030020, 0x40030024, 0x40050008, 0x40050044, 0x40050048]

/-- R283, R420, R421, R443, R444, R451, R491 to R494, Table HS-2: what each command answers and does once it is served. -/
def Sys2Proof.Machine.KspServesItsCommands : Prop :=
  (∀ (s : State) (tcp : Bool) (d : List Byte), s.Hears tcp d → s.SessionFree tcp → ∃ (v : State) (nonce : List Byte), exec (.hello tcp d) s =
      .next (v.replied 1 0 (bytesOf [Config.suid 0, Config.suid 1, BitVec.ofNat 32 s.sec.cycle, BitVec.ofNat 32 (fld idr 0 4), s.reg 0x400B0014, s.pbst] ++ nonce))
    ∧ nonce.length = 16 ∧ v = { s.inSession tcp with free := v.free, host := { (s.inSession tcp).host with nonce := nonce } })
  ∧ (∀ (s : State) (tcp good : Bool) (d : List Byte), s.Serves tcp d true false → s.Inv →
    (good = true ↔ d.length = 128 ∧ sha256 (d.take 64) = Config.otpKey 3 ∧
      P256.verify (sha256 (s.host.nonce ++ leBytes 4 (Config.suid 0).toNat ++ leBytes 4 (Config.suid 1).toNat)) (d.drop 64) (d.take 64) = true) →
    ∃ v : State, exec (.auth tcp d) s = .next (v.replied 2 (if good then 0 else if d.length = 128 then 4 else 6) [])
      ∧ v.host.auth = (s.host.auth || good) ∧ v.host.nonce.length = 16 ∧ v.host.ksp = some (tcp, s.now) ∧ v.mem = s.mem
      ∧ (good = true → tcp = false → (v.reg 0x400E0000).getLsbD 2 = true) ∧ (good = false → v.regs = s.regs))
  ∧ (∀ (s : State) (tcp : Bool) (d : List Byte) (x o n : Nat) (h : Hid), s.Serves tcp d false false → d.length = 6 → x = (d.getD 0 0).toNat → x < 4 →
    (d.getD 1 0).toNat = h.val → o = leNat ((d.drop 2).take 2) → n = leNat ((d.drop 4).take 2) → n ≤ 1024 → o < 0x1000 → o + n ≤ 0x1000 →
    (s.viewPage x h = none → exec (.mread tcp d) s = .next ((s.inSession tcp).replied 0x10 4 []))
    ∧ (∀ p, s.viewPage x h = some p → exec (.mread tcp d) s =
        .next ((s.inSession tcp).replied 0x10 0 ((List.range n).map (fun i => s.viewByte h p (o + i))))))
  ∧ (∀ (s : State) (tcp : Bool) (d : List Byte), s.Serves tcp d true false → s.Inv → ∃ v : State, exec (.logread tcp d) s =
      .next (v.replied 0x20 0 (logAddrs.flatMap (fun a => leBytes 4 (s.reg a).toNat)))
    ∧ v = { s.inSession tcp with regs := v.regs } ∧ v.reg 0x40100008 = 0 ∧ ∀ a, a ≠ 0x40100008 → v.reg a = s.reg a)
  ∧ (∀ (s : State) (tcp : Bool) (d : List Byte) (o n : Nat), s.Serves tcp d true false → d.length = 6 → o = leNat (d.take 4) →
    n = leNat ((d.drop 4).take 2) → exec (.fread tcp d) s = .next ((s.inSession tcp).replied 0x30
      (if 1024 < n ∨ Config.flashBytes < o + n then 6 else 0) (if 1024 < n ∨ Config.flashBytes < o + n then [] else s.bytes (flashKey o) n)))
  ∧ (∀ (s : State) (tcp : Bool) (d : List Byte) (o : Nat), s.Serves tcp d true true → s.Inv → 4 ≤ d.length → o = leNat (d.take 4) →
    o % 0x1000 = 0 → o < Config.flashBytes →
    let shut := s.pw.hold = false ∧ slotBase s.pat.aslot ≤ o ∧ o < slotBase s.pat.aslot + s.patLen s.pat.aslot
    (shut → exec (.fwrite tcp d) s = .next ((s.inSession tcp).replied 0x31 4 []))
    ∧ (¬ shut → ∃ v : State, exec (.fwrite tcp d) s = .next (v.replied 0x31 0 []) ∧ v = { s.inSession tcp with mem := v.mem }
        ∧ (∀ i < 0x1000, v.byte (flashKey (o + i)) = (d.drop 4).getD i 0xFF)
        ∧ ∀ k, (k < flashKey o ∨ flashKey o + 0x1000 ≤ k) → v.byte k = s.byte k))
  ∧ (∀ (s : State) (tcp b : Bool), s.Serves tcp [if b then 1 else 0] false true → s.pat.stage = none →
    exec (.stage tcp [if b then 1 else 0]) s = .next { s.inSession tcp with
      host := { (s.inSession tcp).host with kstg := true }, pat := { s.pat with stage := some b, staged := false } })
  ∧ (∀ s : State, ∀ b c o, s.host.kstg = true → s.pat.stage = some b → s.headErr b = some (c, o) → s.ReadsTo 256 →
    ∃ v : State, exec .stagingDone s = .next v ∧ v.host = { s.host with kstg := false, out := s.host.out ++ [(0xB2, 4, [BitVec.ofNat 8 c])] })
  ∧ (∀ (s : State) (tcp : Bool) (d : List Byte), s.Serves tcp d false true → s.Inv → d.length = 6 → s.pat.stage = none →
    (s.pat.staged = true ∨ (s.sec.cycle = 1 ∧ s.pat.slc ≠ 0)) → s.setOk (!s.dsel) = true → s.shadowEntries = true →
    (s.ep.cur + 2 ≤ leNat d → ∃ v : State, exec (.kspReblock tcp d) s = .next (v.replied 0x33 0 []) ∧ v.pat = { s.pat with armE := leNat d }
      ∧ (v.reg 0x400B003C).getLsbD 0 = true ∧ v.mem = s.mem)
    ∧ (leNat d < s.ep.cur + 2 → ∃ v : State, exec (.kspReblock tcp d) s = .next (v.replied 0x33 4 [3]) ∧ v.pat = s.pat ∧ v.mem = s.mem
      ∧ fld (v.reg 0x400B003C) 4 4 = 3))
  ∧ (∀ (s : State) (tcp : Bool) (d : List Byte), s.Serves tcp d true false →
    exec (.calread tcp d) s = .next ((s.inSession tcp).replied 0x40 0 (s.bytes (flashKey s.calp) 512)))
  ∧ (∀ (s : State) (tcp : Bool) (d : List Byte), s.Serves tcp d true true → s.Inv → d.length = 512 → s.calp % 0x1000 ≤ 0xE00 →
    let good := leNat (d.take 4) = 0x4C435842 ∧ leNat ((d.drop 4).take 4) = 0x02000001
    let shut := s.pw.hold = false ∧ slotBase s.pat.aslot ≤ s.calp ∧ s.calp < slotBase s.pat.aslot + s.patLen s.pat.aslot
    (¬ good → exec (.calwrite tcp d) s = .next ((s.inSession tcp).replied 0x41 6 []))
    ∧ (good → shut → exec (.calwrite tcp d) s = .next ((s.inSession tcp).replied 0x41 4 []))
    ∧ (good → ¬ shut → ∃ v : State, exec (.calwrite tcp d) s = .next (v.replied 0x41 0 [])
        ∧ (∀ i < 512, v.byte (flashKey (s.calp + i)) = (s.calRecord d).getD i 0)
        ∧ (∀ k, (k < flashKey (s.calp - s.calp % 0x1000) ∨ flashKey (s.calp - s.calp % 0x1000 + 0x1000) ≤ k) → v.byte k = s.byte k)
        ∧ (∀ n < 48, v.reg (0x40070200 + 8 * n) = BitVec.ofNat 32 (leNat ((d.drop (0x10 + 8 * n)).take 4))) ∧ v.afe.bad = false))
  ∧ (∀ (s : State) (tcp : Bool) (d : List Byte), s.Serves tcp d true false → s.Inv →
    (s.pw.hold = false → exec (.lcadv tcp d) s = .next ((s.inSession tcp).replied 0x50 7 []))
    ∧ (s.pw.hold = true → s.sec.cycle ≠ 0 → exec (.lcadv tcp d) s = .next ((s.inSession tcp).replied 0x50 4 []))
    ∧ (s.pw.hold = true → s.sec.cycle = 0 → ∃ v : State, exec (.lcadv tcp d) s = .next (v.replied 0x50 0 []) ∧ v.sec.cycle = 1 ∧ Wiped s v ∧ KeysCleared v))
  ∧ (∀ (s : State) (tcp : Bool) (d : List Byte), s.Serves tcp d false true → d.length = 12 →
    ∃ v : State, exec (.qclear tcp d) s = .next (v.replied 0x60 0 []) ∧ v.mem = s.mem ∧ v.hearths = s.hearths
      ∧ ∀ o : Fin 96, (v.dm.out[o]).mask = (if (leNat ((d.drop (4 * (o.val / 32))).take 4)).testBit (o.val % 32) then
          (s.dm.out[o]).mask &&& (s.activeMask o ||| (if (s.dm.out[o]).lat.1 = s.dnow / 40 then (s.dm.out[o]).lat.2 else 0)) else (s.dm.out[o]).mask))

/-- R491 to R494: KSP. Its payload layouts and the order of its checks are the model's choice (log entry 20). -/
def Obligations.KspAnswersByTransportStateAndAuthorisation : Prop := KspRefusesByTable ∧ KspServesItsCommands

/-! ## I2C0, UARTs, GPIO and JTAG (18) -/

/-- R495: a command with GO starts unless one is under way; it ends well with the bytes read in I2CD, with NACK or ARBLOST, or
after 25 ms with TIMEOUT. -/
def Sys2Proof.Machine.I2cCommandsEnd : Prop :=
  (∀ (s : State) (w : Who) (x : Word), s.ReachesGs w 0x400F0084 →
    (s.host.i2c = none → Accepted (.i2ccmd w x) s { s with host := { s.host with
      i2c := some (x ||| 0x80000000, s.now), i2cSt := 0
      out := s.host.out ++ [(3, min 16 (fld x 16 5), BitVec.ofNat 8 (fld x 0 7) :: (List.range (min 16 (fld x 8 5))).map (fun i =>
        BitVec.ofNat 8 (fld (s.reg (0x400F0090 + 4 * (i / 4))) (8 * (i % 4)) 8)))] } })
    ∧ (s.host.i2c ≠ none → Accepted (.i2ccmd w x) s s))
  ∧ (∀ (s : State) (st : Fin 3) (d : List Byte) (c : Word) (t : Nat), s.Inv → s.host.i2c = some (c, t) → s.pw.st < 2 →
    ∃ v, exec (.i2cCommandDone st d) s = .next v ∧ v = { s with
        regs := v.regs
        host := { s.host with i2c := none, i2cSt := if st = 0 then 0 else if st = 1 then 2 else 4 } }
      ∧ (st ≠ 0 → v.regs = s.regs)
      ∧ (st = 0 → ∀ i < 16, (v.reg (0x400F0090 + 4 * (i / 4)) >>> (8 * (i % 4))).setWidth 8 =
          (if i < min 16 (fld c 16 5) then (d[i]?).getD ((s.reg (0x400F0090 + 4 * (i / 4)) >>> (8 * (i % 4))).setWidth 8)
           else (s.reg (0x400F0090 + 4 * (i / 4)) >>> (8 * (i % 4))).setWidth 8)))
  ∧ (∀ (s : State) (c : Word) (t : Nat), s.host.i2c = some (c, t) →
    (t + 25000000 ≤ s.now → exec .i2cTimeout s = .next { s with host := { s.host with i2c := none, i2cSt := 8 } })
    ∧ (s.now < t + 25000000 → exec .i2cTimeout s = .next s))
  ∧ (∀ (s : State) (st : Fin 3) (d : List Byte), s.host.i2c = none → exec (.i2cCommandDone st d) s = .next s ∧ exec .i2cTimeout s = .next s)

/-- R496: a byte that arrives at an enabled UART enters its FIFO, or sets URXOVF when 16 stand there; a read of URXD removes the
oldest and shows it with V; a write of UTXD enters the transmit FIFO unless it is full, or the UART is not enabled (the model's
choice, log entry 40). In Ember and Cold nothing arrives. -/
def Sys2Proof.Machine.UartsMoveBytes : Prop :=
  (∀ (s : State) (u : Fin 2) (b : Byte), s.Inv →
    ((s.reg (0x400F0100 + 0x40 * u.val)).getLsbD 19 = false ∨ 2 ≤ s.pw.st → exec (.uartReceive u b) s = .next s)
    ∧ ((s.reg (0x400F0100 + 0x40 * u.val)).getLsbD 19 = true → s.pw.st < 2 → s.host.urx[u].length < 16 →
        exec (.uartReceive u b) s = .next { s with host := { s.host with urx := s.host.urx.set u (s.host.urx[u] ++ [b]) } })
    ∧ ((s.reg (0x400F0100 + 0x40 * u.val)).getLsbD 19 = true → s.pw.st < 2 → 16 ≤ s.host.urx[u].length →
        ∃ v, exec (.uartReceive u b) s = .next v ∧ v = { s with regs := v.regs } ∧ (v.reg (0x400F010C + 0x40 * u.val)).getLsbD 16 = true
          ∧ ∀ a, a ≠ 0x400F010C + 0x40 * u.val → v.reg a = s.reg a))
  ∧ (∀ (s : State) (w : Who) (u : Fin 2), s.Reaches w (0x400F0108 + 0x40 * u.val) false →
    (s.host.urx[u] = [] → Answered (.urxd w u) s 0 s)
    ∧ (∀ b r, s.host.urx[u] = b :: r →
        Answered (.urxd w u) s (BitVec.ofNat 32 (b.toNat + 256)) { s with host := { s.host with urx := s.host.urx.set u r } }))
  ∧ (∀ (s : State) (w : Who) (u : Fin 2) (x : Word), s.ReachesGs w (0x400F0104 + 0x40 * u.val) →
    (16 ≤ s.host.utx[u].length ∨ (s.reg (0x400F0100 + 0x40 * u.val)).getLsbD 19 = false → Accepted (.utxd w u x) s s)
    ∧ (s.host.utx[u].length < 16 → (s.reg (0x400F0100 + 0x40 * u.val)).getLsbD 19 = true → ∃ v, Accepted (.utxd w u x) s v
        ∧ v = { s with host := { s.host with utx := s.host.utx.set u (s.host.utx[u] ++ [BitVec.ofNat 8 (fld x 0 8)]), utxAt := v.host.utxAt } }))

/-- R497: a pin that is an input and shows the edge or level of GPIEDGE and GPIPOL sets its bit of GPIST, and raises line 24 + its
field of GPLINE on all hearths where GPIEN has it; else its level alone changes. In Ember and Cold no cycle samples it, and GPIO0 to
GPIO3 may wake the device (R471). -/
def Sys2Proof.Machine.GpioEventsRaiseTheirLines : Prop :=
  (∀ (s : State) (n : Fin 32) (x : Bool), s.Inv → (s.reg 0x400F0000).getLsbD n.val = false →
    (s.pw.st = 0 ∧ s.pw.sleep = none) ∨ (s.pw.st < 2 ∧ 4 ≤ n.val) →
    let hit := x = (s.reg 0x400F001C).getLsbD n.val ∧ (s.host.gpin.getLsbD n.val ≠ x ∨ (s.reg 0x400F0018).getLsbD n.val = false)
    (hit → ∃ v, exec (.gpioEvent n x) s = .next v ∧ v.host = { s.host with gpin := v.host.gpin } ∧ v.mem = s.mem
        ∧ (∀ m : Fin 32, v.host.gpin.getLsbD m.val = if m = n then x else s.host.gpin.getLsbD m.val)
        ∧ v.reg 0x400F0020 = s.reg 0x400F0020 ||| BitVec.ofNat 32 (2 ^ n.val) ∧ s.OnlyLines v
        ∧ (∀ h, (v.hearth h).icpend = (s.hearth h).icpend ||| (if (s.reg 0x400F0014).getLsbD n.val then
            BitVec.ofNat 32 (2 ^ (24 + fld (s.reg (0x400F0024 + 4 * (n.val / 16))) (2 * (n.val % 16)) 2)) else 0)))
    ∧ (¬ hit → ∃ v, exec (.gpioEvent n x) s = .next v ∧ v = { s with host := { s.host with gpin := v.host.gpin } }
        ∧ ∀ m : Fin 32, v.host.gpin.getLsbD m.val = if m = n then x else s.host.gpin.getLsbD m.val))
  ∧ (∀ (s : State) (n : Fin 32) (x : Bool), 2 ≤ s.pw.st → 4 ≤ n.val → ∃ v, exec (.gpioEvent n x) s = .next v
      ∧ v = { s with host := { s.host with gpin := v.host.gpin } }
      ∧ ∀ m : Fin 32, v.host.gpin.getLsbD m.val = if m = n then x else s.host.gpin.getLsbD m.val)
  ∧ (∀ (s : State) (n : Nat) (x : Bool), s.Inv → (hn : n < 4) → (s.pw.st = 1 ∨ s.pw.st = 2) → (s.reg 0x40100014).getLsbD (4 + n) = true →
      (s.reg 0x40100014).getLsbD (12 + n) = x → s.host.gpin.getLsbD n ≠ x →
      ∃ v, exec (.gpioEvent ⟨n, by omega⟩ x) s = .next v ∧ v.pw.st = 0 ∧ v.reg 0x40100018 = BitVec.ofNat 32 (2 ^ (4 + n)) ∧ v.mem = s.mem)

/-- R498, Table PA-7: an instruction that the life cycle permits is loaded, another acts as BYPASS; IDCODE shows the code of the
stepping; a reset of the TAP selects IDCODE (the model's choice, log entry 14). -/
def Sys2Proof.Machine.JtagLoadsItsInstructions : Prop :=
  ∀ s : State,
    exec .idcode s = .next { s with host := { s.host with
      ir := 1
      out := s.host.out ++ [(32, 0, leBytes 4 (match Config.stepping with | .a1 => 0x1481058B | .b0 => 0x2481058B))] } }
    ∧ exec .tapReset s = .next { s with host := { s.host with ir := 1 } }
    ∧ exec .bypass s = .next { s with host := { s.host with ir := 0xFF } }
    ∧ exec .samplePreload s = .next { s with host := { s.host with ir := if s.sec.cycle = 4 then 0xFF else 2 } }
    ∧ exec .jtagDebug s = .next { s with host := { s.host with ir := if s.sec.cycle = 4 then 0xFF else 0x10 } }
    ∧ exec .extest s = .next { s with host := { s.host with ir := if s.sec.cycle = 2 ∨ s.sec.cycle = 4 then 0xFF else 3 } }

/-- R495 to R498: the serial ports, GPIO and JTAG. -/
def Obligations.SerialPortsGpioAndJtagAct : Prop := I2cCommandsEnd ∧ UartsMoveBytes ∧ GpioEventsRaiseTheirLines ∧ JtagLoadsItsInstructions

/-! ## The step, the state after reset, invariants -/

/-- A step takes the command at the front of the queue: it is `exec` of that command on the state with the queue's rest. -/
def Obligations.StepRunsTheFrontCommand : Prop := ∀ (c : Instr) (s : State) (r : List Instr), s.pending = c :: r → step s = exec c { s with pending := r }

/-- Nothing but time and a UART has work to do: no sleep request, no post, no frame waits, and no reset is under way. -/
def Sys2Proof.Machine.State.Quiet (s : State) : Prop :=
  s.pending = [] ∧ s.pw.sleep = none ∧ s.hub.outs = [] ∧ (∀ p : Fin 4, (s.lk.ports[p]).queue = []) ∧ s.pw.rst = none

/-- On an empty queue 8 ns pass (the model's choice, log entry 1): the clock advances; disciplined time advances with it in Blaze and
Banked, by 8 ns, or by 16 or 0 where the rate correction has gathered 8 ns (R294), and a slew at its limit is noted; a UART sends a
byte whose time is over. With no sleep request, no post and no frame waiting nothing else changes. -/
def Obligations.IdleStepPassesEightNanoseconds : Prop :=
  (∀ (s : State) (a : Int) (l : Bool), s.Quiet → (∀ u : Fin 2, s.host.utx[u] = []) →
    a = s.ep.rateAcc + s.tdRate → l = (s.ep.atLim || (decide (s.epTsrc = 1) && decide (s.ptpRate.natAbs = 34359738))) →
    (2 ≤ s.pw.st → step s = .next { s with now := s.now + 8 })
    ∧ (s.pw.st < 2 → 40 * 2 ^ 32 ≤ a →
        step s = .next { s with now := s.now + 8, td := s.td + 16, ep := { s.ep with rateAcc := a - 40 * 2 ^ 32, atLim := l } })
    ∧ (s.pw.st < 2 → a ≤ -(40 * 2 ^ 32) → step s = .next { s with now := s.now + 8, ep := { s.ep with rateAcc := a + 40 * 2 ^ 32, atLim := l } })
    ∧ (s.pw.st < 2 → -(40 * 2 ^ 32) < a → a < 40 * 2 ^ 32 →
        step s = .next { s with now := s.now + 8, td := s.td + 8, ep := { s.ep with rateAcc := a, atLim := l } }))
  ∧ (∀ (s : State) (b : Byte) (r : List Byte) (n : Nat), s.Quiet → 2 ≤ s.pw.st →
    s.host.utx[(0 : Fin 2)] = b :: r → s.host.utx[(1 : Fin 2)] = [] → (s.reg 0x400F0100).getLsbD 19 = true → fld (s.reg 0x400F0100) 16 3 = 0 →
    n = fld (s.reg 0x400F0100) 0 16 → 2 ≤ n → s.host.utxAt[(0 : Fin 2)] + 10 * 16 * n * 10 / 3 ≤ s.now + 8 →
    step s = .next { s with
      now := s.now + 8
      host := { s.host with utx := s.host.utx.set 0 r, utxAt := s.host.utxAt.set 0 (s.now + 8), out := s.host.out ++ [(16, 0, [b])] } })

/-- The values that the spec gives for reset (Tables SC-4, WG-5, PW-9 to PW-12, PA-11, PA-12, FE-11): registers of hearths, sockets and flags
0, every hearth as held until start-up, RSTCAUSE.POR, every output quenched by RESET, ports DOWN, mailboxes empty, no lock held,
REMAP 0, bank 0 and block A in use, CLKSTAT and both USTu 0, PWVIN 0, an empty queue. -/
def Obligations.ResetLeavesTheValuesOfTheTables : Prop :=
  State.reset.pending = [] ∧ State.reset.mem = [] ∧ State.reset.reg 0x40100004 = 1 ∧ State.reset.remap = false
    ∧ State.reset.clkstat = 0 ∧ (∀ u : Fin 2, State.reset.ust u = 0) ∧ State.reset.pw.vin = 0 ∧ (∀ k : Fin 8, State.reset.pw.tj[k] = 0)
    ∧ State.reset.bank = 0 ∧ State.reset.blksel = false ∧ State.reset.dset = false ∧ State.reset.mtab = false ∧ State.reset.pw.booted = false
    ∧ (∀ h : Hid, (∀ i : Fin 31, (State.reset.hearth h).g[i] = 0) ∧ (∀ i : Fin 15, (State.reset.hearth h).rs[i] = 0)
        ∧ (State.reset.hearth h).p = 1 ∧ (State.reset.hearth h).acc = 0 ∧ (State.reset.hearth h).sov = false ∧ (State.reset.hearth h).dov = false
        ∧ (State.reset.hearth h).dvz = false ∧ (State.reset.hearth h).mode = .gs ∧ (State.reset.hearth h).ml = 0
        ∧ (State.reset.hearth h).sb = [] ∧ (State.reset.hearth h).far = [] ∧ (State.reset.hearth h).doorbell = 0 ∧ (State.reset.hearth h).icpend = 0)
    ∧ (∀ o : Fin 96, (State.reset.dm.out[o]).mask = 0x4000 ∧ (State.reset.dm.out[o]).win = none)
    ∧ (∀ p : Fin 4, (State.reset.lk.ports[p]).state = 0) ∧ (∀ m : Fin 128, State.reset.hub.boxes[m] = []) ∧ (∀ n : Fin 64, State.reset.hub.locks[n] = none)

/-- Every command answers a next state, in every state: none faults and none is refused; a step therefore always goes on. -/
def Obligations.EveryCommandCompletes : Prop :=
  (∀ (c : Instr) (s : State), ∃ t, exec c s = .next t) ∧ ∀ s : State, ∃ t, step s = .next t

/-- The invariant holds right after reset. -/
def Obligations.InvariantHoldsAtReset : Prop := State.reset.Inv

/-- Every step keeps the invariant: memory, block registers, hearth control registers and tag generations stay in canonical form. -/
def Obligations.EveryStepKeepsTheInvariant : Prop := ∀ s t : State, s.Inv → step s = .next t → t.Inv

/-- R451, R458: whatever the command, fuses only go forward: the life cycle stays, steps by one or goes to SCRAPPED, no
revocation is undone, and the clock never runs backward; and a command never touches the queue. -/
def Obligations.CommandsOnlyMoveFusesForward : Prop :=
  ∀ (c : Instr) (s t : State), exec c s = .next t → t.pending = s.pending ∧ s.now ≤ t.now ∧ s.sec.rev &&& ~~~t.sec.rev = 0
    ∧ (t.sec.cycle = s.sec.cycle ∨ (s.sec.cycle < 4 ∧ (t.sec.cycle = s.sec.cycle + 1 ∨ t.sec.cycle = 4)))
end

