-- ==== Sys2Proof/Laws/State.lean ====
section
/-!
SUPPORT. What each update of the state leaves alone and what it sets: one lemma per field and reader, true by unfolding.
-/
namespace Sys2Proof.Machine
open Sys2Proof

/-! ## setHearth -/

@[simp] theorem State.setHearth_hearths (s : State) (h : Hid) (x : Hearth) : (s.setHearth h x).hearths = s.hearths.set h x := rfl
@[simp] theorem State.setHearth_stks (s : State) (h : Hid) (x : Hearth) : (s.setHearth h x).stks = s.stks := rfl
@[simp] theorem State.setHearth_mem (s : State) (h : Hid) (x : Hearth) : (s.setHearth h x).mem = s.mem := rfl
@[simp] theorem State.setHearth_regs (s : State) (h : Hid) (x : Hearth) : (s.setHearth h x).regs = s.regs := rfl
@[simp] theorem State.setHearth_ep (s : State) (h : Hid) (x : Hearth) : (s.setHearth h x).ep = s.ep := rfl
@[simp] theorem State.setHearth_hub (s : State) (h : Hid) (x : Hearth) : (s.setHearth h x).hub = s.hub := rfl
@[simp] theorem State.setHearth_lk (s : State) (h : Hid) (x : Hearth) : (s.setHearth h x).lk = s.lk := rfl
@[simp] theorem State.setHearth_felt (s : State) (h : Hid) (x : Hearth) : (s.setHearth h x).felt = s.felt := rfl
@[simp] theorem State.setHearth_xb (s : State) (h : Hid) (x : Hearth) : (s.setHearth h x).xb = s.xb := rfl
@[simp] theorem State.setHearth_bel (s : State) (h : Hid) (x : Hearth) : (s.setHearth h x).bel = s.bel := rfl
@[simp] theorem State.setHearth_dm (s : State) (h : Hid) (x : Hearth) : (s.setHearth h x).dm = s.dm := rfl
@[simp] theorem State.setHearth_afe (s : State) (h : Hid) (x : Hearth) : (s.setHearth h x).afe = s.afe := rfl
@[simp] theorem State.setHearth_dg (s : State) (h : Hid) (x : Hearth) : (s.setHearth h x).dg = s.dg := rfl
@[simp] theorem State.setHearth_pw (s : State) (h : Hid) (x : Hearth) : (s.setHearth h x).pw = s.pw := rfl
@[simp] theorem State.setHearth_sec (s : State) (h : Hid) (x : Hearth) : (s.setHearth h x).sec = s.sec := rfl
@[simp] theorem State.setHearth_pat (s : State) (h : Hid) (x : Hearth) : (s.setHearth h x).pat = s.pat := rfl
@[simp] theorem State.setHearth_host (s : State) (h : Hid) (x : Hearth) : (s.setHearth h x).host = s.host := rfl
@[simp] theorem State.setHearth_hrst (s : State) (h : Hid) (x : Hearth) : (s.setHearth h x).hrst = s.hrst := rfl
@[simp] theorem State.setHearth_lc (s : State) (h : Hid) (x : Hearth) : (s.setHearth h x).lc = s.lc := rfl
@[simp] theorem State.setHearth_bank (s : State) (h : Hid) (x : Hearth) : (s.setHearth h x).bank = s.bank := rfl
@[simp] theorem State.setHearth_blksel (s : State) (h : Hid) (x : Hearth) : (s.setHearth h x).blksel = s.blksel := rfl
@[simp] theorem State.setHearth_dset (s : State) (h : Hid) (x : Hearth) : (s.setHearth h x).dset = s.dset := rfl
@[simp] theorem State.setHearth_mtab (s : State) (h : Hid) (x : Hearth) : (s.setHearth h x).mtab = s.mtab := rfl
@[simp] theorem State.setHearth_now (s : State) (h : Hid) (x : Hearth) : (s.setHearth h x).now = s.now := rfl
@[simp] theorem State.setHearth_td (s : State) (h : Hid) (x : Hearth) : (s.setHearth h x).td = s.td := rfl
@[simp] theorem State.setHearth_nextId (s : State) (h : Hid) (x : Hearth) : (s.setHearth h x).nextId = s.nextId := rfl
@[simp] theorem State.setHearth_free (s : State) (h : Hid) (x : Hearth) : (s.setHearth h x).free = s.free := rfl
@[simp] theorem State.setHearth_pending (s : State) (h : Hid) (x : Hearth) : (s.setHearth h x).pending = s.pending := rfl
@[simp] theorem State.setHearth_stack (s : State) (h : Hid) (x : Hearth) (r : Fin 8) : (s.setHearth h x).stack r = s.stack r := rfl
@[simp] theorem State.setHearth_byte (s : State) (h : Hid) (x : Hearth) (r : Nat) : (s.setHearth h x).byte r = s.byte r := rfl
@[simp] theorem State.setHearth_reg (s : State) (h : Hid) (x : Hearth) (r : Nat) : (s.setHearth h x).reg r = s.reg r := rfl
@[simp] theorem State.setHearth_port (s : State) (h : Hid) (x : Hearth) (r : Fin 4) : (s.setHearth h x).port r = s.port r := rfl
@[simp] theorem State.setHearth_box (s : State) (h : Hid) (x : Hearth) (r : Nat) : (s.setHearth h x).box r = s.box r := rfl
@[simp] theorem State.setHearth_lock (s : State) (h : Hid) (x : Hearth) (r : Nat) : (s.setHearth h x).lock r = s.lock r := rfl
@[simp] theorem State.setHearth_outp (s : State) (h : Hid) (x : Hearth) (r : Fin 96) : (s.setHearth h x).outp r = s.outp r := rfl
@[simp] theorem State.setHearth_draught (s : State) (h : Hid) (x : Hearth) (r : Draught) : (s.setHearth h x).draught r = s.draught r := rfl

/-! ## setStack -/

@[simp] theorem State.setStack_hearths (s : State) (k : Fin 8) (x : Stack) : (s.setStack k x).hearths = s.hearths := rfl
@[simp] theorem State.setStack_stks (s : State) (k : Fin 8) (x : Stack) : (s.setStack k x).stks = s.stks.set k x := rfl
@[simp] theorem State.setStack_mem (s : State) (k : Fin 8) (x : Stack) : (s.setStack k x).mem = s.mem := rfl
@[simp] theorem State.setStack_regs (s : State) (k : Fin 8) (x : Stack) : (s.setStack k x).regs = s.regs := rfl
@[simp] theorem State.setStack_ep (s : State) (k : Fin 8) (x : Stack) : (s.setStack k x).ep = s.ep := rfl
@[simp] theorem State.setStack_hub (s : State) (k : Fin 8) (x : Stack) : (s.setStack k x).hub = s.hub := rfl
@[simp] theorem State.setStack_lk (s : State) (k : Fin 8) (x : Stack) : (s.setStack k x).lk = s.lk := rfl
@[simp] theorem State.setStack_felt (s : State) (k : Fin 8) (x : Stack) : (s.setStack k x).felt = s.felt := rfl
@[simp] theorem State.setStack_xb (s : State) (k : Fin 8) (x : Stack) : (s.setStack k x).xb = s.xb := rfl
@[simp] theorem State.setStack_bel (s : State) (k : Fin 8) (x : Stack) : (s.setStack k x).bel = s.bel := rfl
@[simp] theorem State.setStack_dm (s : State) (k : Fin 8) (x : Stack) : (s.setStack k x).dm = s.dm := rfl
@[simp] theorem State.setStack_afe (s : State) (k : Fin 8) (x : Stack) : (s.setStack k x).afe = s.afe := rfl
@[simp] theorem State.setStack_dg (s : State) (k : Fin 8) (x : Stack) : (s.setStack k x).dg = s.dg := rfl
@[simp] theorem State.setStack_pw (s : State) (k : Fin 8) (x : Stack) : (s.setStack k x).pw = s.pw := rfl
@[simp] theorem State.setStack_sec (s : State) (k : Fin 8) (x : Stack) : (s.setStack k x).sec = s.sec := rfl
@[simp] theorem State.setStack_pat (s : State) (k : Fin 8) (x : Stack) : (s.setStack k x).pat = s.pat := rfl
@[simp] theorem State.setStack_host (s : State) (k : Fin 8) (x : Stack) : (s.setStack k x).host = s.host := rfl
@[simp] theorem State.setStack_hrst (s : State) (k : Fin 8) (x : Stack) : (s.setStack k x).hrst = s.hrst := rfl
@[simp] theorem State.setStack_lc (s : State) (k : Fin 8) (x : Stack) : (s.setStack k x).lc = s.lc := rfl
@[simp] theorem State.setStack_bank (s : State) (k : Fin 8) (x : Stack) : (s.setStack k x).bank = s.bank := rfl
@[simp] theorem State.setStack_blksel (s : State) (k : Fin 8) (x : Stack) : (s.setStack k x).blksel = s.blksel := rfl
@[simp] theorem State.setStack_dset (s : State) (k : Fin 8) (x : Stack) : (s.setStack k x).dset = s.dset := rfl
@[simp] theorem State.setStack_mtab (s : State) (k : Fin 8) (x : Stack) : (s.setStack k x).mtab = s.mtab := rfl
@[simp] theorem State.setStack_now (s : State) (k : Fin 8) (x : Stack) : (s.setStack k x).now = s.now := rfl
@[simp] theorem State.setStack_td (s : State) (k : Fin 8) (x : Stack) : (s.setStack k x).td = s.td := rfl
@[simp] theorem State.setStack_nextId (s : State) (k : Fin 8) (x : Stack) : (s.setStack k x).nextId = s.nextId := rfl
@[simp] theorem State.setStack_free (s : State) (k : Fin 8) (x : Stack) : (s.setStack k x).free = s.free := rfl
@[simp] theorem State.setStack_pending (s : State) (k : Fin 8) (x : Stack) : (s.setStack k x).pending = s.pending := rfl
@[simp] theorem State.setStack_hearth (s : State) (k : Fin 8) (x : Stack) (r : Hid) : (s.setStack k x).hearth r = s.hearth r := rfl
@[simp] theorem State.setStack_byte (s : State) (k : Fin 8) (x : Stack) (r : Nat) : (s.setStack k x).byte r = s.byte r := rfl
@[simp] theorem State.setStack_reg (s : State) (k : Fin 8) (x : Stack) (r : Nat) : (s.setStack k x).reg r = s.reg r := rfl
@[simp] theorem State.setStack_port (s : State) (k : Fin 8) (x : Stack) (r : Fin 4) : (s.setStack k x).port r = s.port r := rfl
@[simp] theorem State.setStack_box (s : State) (k : Fin 8) (x : Stack) (r : Nat) : (s.setStack k x).box r = s.box r := rfl
@[simp] theorem State.setStack_lock (s : State) (k : Fin 8) (x : Stack) (r : Nat) : (s.setStack k x).lock r = s.lock r := rfl
@[simp] theorem State.setStack_outp (s : State) (k : Fin 8) (x : Stack) (r : Fin 96) : (s.setStack k x).outp r = s.outp r := rfl
@[simp] theorem State.setStack_draught (s : State) (k : Fin 8) (x : Stack) (r : Draught) : (s.setStack k x).draught r = s.draught r := rfl

/-! ## setByte -/

@[simp] theorem State.setByte_hearths (s : State) (k : Nat) (v : Byte) : (s.setByte k v).hearths = s.hearths := rfl
@[simp] theorem State.setByte_stks (s : State) (k : Nat) (v : Byte) : (s.setByte k v).stks = s.stks := rfl
@[simp] theorem State.setByte_mem (s : State) (k : Nat) (v : Byte) : (s.setByte k v).mem = smSet memDefault s.mem k v := rfl
@[simp] theorem State.setByte_regs (s : State) (k : Nat) (v : Byte) : (s.setByte k v).regs = s.regs := rfl
@[simp] theorem State.setByte_ep (s : State) (k : Nat) (v : Byte) : (s.setByte k v).ep = s.ep := rfl
@[simp] theorem State.setByte_hub (s : State) (k : Nat) (v : Byte) : (s.setByte k v).hub = s.hub := rfl
@[simp] theorem State.setByte_lk (s : State) (k : Nat) (v : Byte) : (s.setByte k v).lk = s.lk := rfl
@[simp] theorem State.setByte_felt (s : State) (k : Nat) (v : Byte) : (s.setByte k v).felt = s.felt := rfl
@[simp] theorem State.setByte_xb (s : State) (k : Nat) (v : Byte) : (s.setByte k v).xb = s.xb := rfl
@[simp] theorem State.setByte_bel (s : State) (k : Nat) (v : Byte) : (s.setByte k v).bel = s.bel := rfl
@[simp] theorem State.setByte_dm (s : State) (k : Nat) (v : Byte) : (s.setByte k v).dm = s.dm := rfl
@[simp] theorem State.setByte_afe (s : State) (k : Nat) (v : Byte) : (s.setByte k v).afe = s.afe := rfl
@[simp] theorem State.setByte_dg (s : State) (k : Nat) (v : Byte) : (s.setByte k v).dg = s.dg := rfl
@[simp] theorem State.setByte_pw (s : State) (k : Nat) (v : Byte) : (s.setByte k v).pw = s.pw := rfl
@[simp] theorem State.setByte_sec (s : State) (k : Nat) (v : Byte) : (s.setByte k v).sec = s.sec := rfl
@[simp] theorem State.setByte_pat (s : State) (k : Nat) (v : Byte) : (s.setByte k v).pat = s.pat := rfl
@[simp] theorem State.setByte_host (s : State) (k : Nat) (v : Byte) : (s.setByte k v).host = s.host := rfl
@[simp] theorem State.setByte_hrst (s : State) (k : Nat) (v : Byte) : (s.setByte k v).hrst = s.hrst := rfl
@[simp] theorem State.setByte_lc (s : State) (k : Nat) (v : Byte) : (s.setByte k v).lc = s.lc := rfl
@[simp] theorem State.setByte_bank (s : State) (k : Nat) (v : Byte) : (s.setByte k v).bank = s.bank := rfl
@[simp] theorem State.setByte_blksel (s : State) (k : Nat) (v : Byte) : (s.setByte k v).blksel = s.blksel := rfl
@[simp] theorem State.setByte_dset (s : State) (k : Nat) (v : Byte) : (s.setByte k v).dset = s.dset := rfl
@[simp] theorem State.setByte_mtab (s : State) (k : Nat) (v : Byte) : (s.setByte k v).mtab = s.mtab := rfl
@[simp] theorem State.setByte_now (s : State) (k : Nat) (v : Byte) : (s.setByte k v).now = s.now := rfl
@[simp] theorem State.setByte_td (s : State) (k : Nat) (v : Byte) : (s.setByte k v).td = s.td := rfl
@[simp] theorem State.setByte_nextId (s : State) (k : Nat) (v : Byte) : (s.setByte k v).nextId = s.nextId := rfl
@[simp] theorem State.setByte_free (s : State) (k : Nat) (v : Byte) : (s.setByte k v).free = s.free := rfl
@[simp] theorem State.setByte_pending (s : State) (k : Nat) (v : Byte) : (s.setByte k v).pending = s.pending := rfl
@[simp] theorem State.setByte_hearth (s : State) (k : Nat) (v : Byte) (r : Hid) : (s.setByte k v).hearth r = s.hearth r := rfl
@[simp] theorem State.setByte_stack (s : State) (k : Nat) (v : Byte) (r : Fin 8) : (s.setByte k v).stack r = s.stack r := rfl
@[simp] theorem State.setByte_reg (s : State) (k : Nat) (v : Byte) (r : Nat) : (s.setByte k v).reg r = s.reg r := rfl
@[simp] theorem State.setByte_port (s : State) (k : Nat) (v : Byte) (r : Fin 4) : (s.setByte k v).port r = s.port r := rfl
@[simp] theorem State.setByte_box (s : State) (k : Nat) (v : Byte) (r : Nat) : (s.setByte k v).box r = s.box r := rfl
@[simp] theorem State.setByte_lock (s : State) (k : Nat) (v : Byte) (r : Nat) : (s.setByte k v).lock r = s.lock r := rfl
@[simp] theorem State.setByte_outp (s : State) (k : Nat) (v : Byte) (r : Fin 96) : (s.setByte k v).outp r = s.outp r := rfl
@[simp] theorem State.setByte_draught (s : State) (k : Nat) (v : Byte) (r : Draught) : (s.setByte k v).draught r = s.draught r := rfl

/-! ## setReg -/

@[simp] theorem State.setReg_hearths (s : State) (a : Nat) (v : Word) : (s.setReg a v).hearths = s.hearths := rfl
@[simp] theorem State.setReg_stks (s : State) (a : Nat) (v : Word) : (s.setReg a v).stks = s.stks := rfl
@[simp] theorem State.setReg_mem (s : State) (a : Nat) (v : Word) : (s.setReg a v).mem = s.mem := rfl
@[simp] theorem State.setReg_regs (s : State) (a : Nat) (v : Word) : (s.setReg a v).regs = smSet regDefault s.regs a v := rfl
@[simp] theorem State.setReg_ep (s : State) (a : Nat) (v : Word) : (s.setReg a v).ep = s.ep := rfl
@[simp] theorem State.setReg_hub (s : State) (a : Nat) (v : Word) : (s.setReg a v).hub = s.hub := rfl
@[simp] theorem State.setReg_lk (s : State) (a : Nat) (v : Word) : (s.setReg a v).lk = s.lk := rfl
@[simp] theorem State.setReg_felt (s : State) (a : Nat) (v : Word) : (s.setReg a v).felt = s.felt := rfl
@[simp] theorem State.setReg_xb (s : State) (a : Nat) (v : Word) : (s.setReg a v).xb = s.xb := rfl
@[simp] theorem State.setReg_bel (s : State) (a : Nat) (v : Word) : (s.setReg a v).bel = s.bel := rfl
@[simp] theorem State.setReg_dm (s : State) (a : Nat) (v : Word) : (s.setReg a v).dm = s.dm := rfl
@[simp] theorem State.setReg_afe (s : State) (a : Nat) (v : Word) : (s.setReg a v).afe = s.afe := rfl
@[simp] theorem State.setReg_dg (s : State) (a : Nat) (v : Word) : (s.setReg a v).dg = s.dg := rfl
@[simp] theorem State.setReg_pw (s : State) (a : Nat) (v : Word) : (s.setReg a v).pw = s.pw := rfl
@[simp] theorem State.setReg_sec (s : State) (a : Nat) (v : Word) : (s.setReg a v).sec = s.sec := rfl
@[simp] theorem State.setReg_pat (s : State) (a : Nat) (v : Word) : (s.setReg a v).pat = s.pat := rfl
@[simp] theorem State.setReg_host (s : State) (a : Nat) (v : Word) : (s.setReg a v).host = s.host := rfl
@[simp] theorem State.setReg_hrst (s : State) (a : Nat) (v : Word) : (s.setReg a v).hrst = s.hrst := rfl
@[simp] theorem State.setReg_lc (s : State) (a : Nat) (v : Word) : (s.setReg a v).lc = s.lc := rfl
@[simp] theorem State.setReg_bank (s : State) (a : Nat) (v : Word) : (s.setReg a v).bank = s.bank := rfl
@[simp] theorem State.setReg_blksel (s : State) (a : Nat) (v : Word) : (s.setReg a v).blksel = s.blksel := rfl
@[simp] theorem State.setReg_dset (s : State) (a : Nat) (v : Word) : (s.setReg a v).dset = s.dset := rfl
@[simp] theorem State.setReg_mtab (s : State) (a : Nat) (v : Word) : (s.setReg a v).mtab = s.mtab := rfl
@[simp] theorem State.setReg_now (s : State) (a : Nat) (v : Word) : (s.setReg a v).now = s.now := rfl
@[simp] theorem State.setReg_td (s : State) (a : Nat) (v : Word) : (s.setReg a v).td = s.td := rfl
@[simp] theorem State.setReg_nextId (s : State) (a : Nat) (v : Word) : (s.setReg a v).nextId = s.nextId := rfl
@[simp] theorem State.setReg_free (s : State) (a : Nat) (v : Word) : (s.setReg a v).free = s.free := rfl
@[simp] theorem State.setReg_pending (s : State) (a : Nat) (v : Word) : (s.setReg a v).pending = s.pending := rfl
@[simp] theorem State.setReg_hearth (s : State) (a : Nat) (v : Word) (r : Hid) : (s.setReg a v).hearth r = s.hearth r := rfl
@[simp] theorem State.setReg_stack (s : State) (a : Nat) (v : Word) (r : Fin 8) : (s.setReg a v).stack r = s.stack r := rfl
@[simp] theorem State.setReg_byte (s : State) (a : Nat) (v : Word) (r : Nat) : (s.setReg a v).byte r = s.byte r := rfl
@[simp] theorem State.setReg_port (s : State) (a : Nat) (v : Word) (r : Fin 4) : (s.setReg a v).port r = s.port r := rfl
@[simp] theorem State.setReg_box (s : State) (a : Nat) (v : Word) (r : Nat) : (s.setReg a v).box r = s.box r := rfl
@[simp] theorem State.setReg_lock (s : State) (a : Nat) (v : Word) (r : Nat) : (s.setReg a v).lock r = s.lock r := rfl
@[simp] theorem State.setReg_outp (s : State) (a : Nat) (v : Word) (r : Fin 96) : (s.setReg a v).outp r = s.outp r := rfl
@[simp] theorem State.setReg_draught (s : State) (a : Nat) (v : Word) (r : Draught) : (s.setReg a v).draught r = s.draught r := rfl

/-! ## setEp -/

@[simp] theorem State.setEp_hearths (s : State) (e : Ep) : (s.setEp e).hearths = s.hearths := rfl
@[simp] theorem State.setEp_stks (s : State) (e : Ep) : (s.setEp e).stks = s.stks := rfl
@[simp] theorem State.setEp_mem (s : State) (e : Ep) : (s.setEp e).mem = s.mem := rfl
@[simp] theorem State.setEp_regs (s : State) (e : Ep) : (s.setEp e).regs = s.regs := rfl
@[simp] theorem State.setEp_ep (s : State) (e : Ep) : (s.setEp e).ep = e := rfl
@[simp] theorem State.setEp_hub (s : State) (e : Ep) : (s.setEp e).hub = s.hub := rfl
@[simp] theorem State.setEp_lk (s : State) (e : Ep) : (s.setEp e).lk = s.lk := rfl
@[simp] theorem State.setEp_felt (s : State) (e : Ep) : (s.setEp e).felt = s.felt := rfl
@[simp] theorem State.setEp_xb (s : State) (e : Ep) : (s.setEp e).xb = s.xb := rfl
@[simp] theorem State.setEp_bel (s : State) (e : Ep) : (s.setEp e).bel = s.bel := rfl
@[simp] theorem State.setEp_dm (s : State) (e : Ep) : (s.setEp e).dm = s.dm := rfl
@[simp] theorem State.setEp_afe (s : State) (e : Ep) : (s.setEp e).afe = s.afe := rfl
@[simp] theorem State.setEp_dg (s : State) (e : Ep) : (s.setEp e).dg = s.dg := rfl
@[simp] theorem State.setEp_pw (s : State) (e : Ep) : (s.setEp e).pw = s.pw := rfl
@[simp] theorem State.setEp_sec (s : State) (e : Ep) : (s.setEp e).sec = s.sec := rfl
@[simp] theorem State.setEp_pat (s : State) (e : Ep) : (s.setEp e).pat = s.pat := rfl
@[simp] theorem State.setEp_host (s : State) (e : Ep) : (s.setEp e).host = s.host := rfl
@[simp] theorem State.setEp_hrst (s : State) (e : Ep) : (s.setEp e).hrst = s.hrst := rfl
@[simp] theorem State.setEp_lc (s : State) (e : Ep) : (s.setEp e).lc = s.lc := rfl
@[simp] theorem State.setEp_bank (s : State) (e : Ep) : (s.setEp e).bank = s.bank := rfl
@[simp] theorem State.setEp_blksel (s : State) (e : Ep) : (s.setEp e).blksel = s.blksel := rfl
@[simp] theorem State.setEp_dset (s : State) (e : Ep) : (s.setEp e).dset = s.dset := rfl
@[simp] theorem State.setEp_mtab (s : State) (e : Ep) : (s.setEp e).mtab = s.mtab := rfl
@[simp] theorem State.setEp_now (s : State) (e : Ep) : (s.setEp e).now = s.now := rfl
@[simp] theorem State.setEp_td (s : State) (e : Ep) : (s.setEp e).td = s.td := rfl
@[simp] theorem State.setEp_nextId (s : State) (e : Ep) : (s.setEp e).nextId = s.nextId := rfl
@[simp] theorem State.setEp_free (s : State) (e : Ep) : (s.setEp e).free = s.free := rfl
@[simp] theorem State.setEp_pending (s : State) (e : Ep) : (s.setEp e).pending = s.pending := rfl
@[simp] theorem State.setEp_hearth (s : State) (e : Ep) (r : Hid) : (s.setEp e).hearth r = s.hearth r := rfl
@[simp] theorem State.setEp_stack (s : State) (e : Ep) (r : Fin 8) : (s.setEp e).stack r = s.stack r := rfl
@[simp] theorem State.setEp_byte (s : State) (e : Ep) (r : Nat) : (s.setEp e).byte r = s.byte r := rfl
@[simp] theorem State.setEp_reg (s : State) (e : Ep) (r : Nat) : (s.setEp e).reg r = s.reg r := rfl
@[simp] theorem State.setEp_port (s : State) (e : Ep) (r : Fin 4) : (s.setEp e).port r = s.port r := rfl
@[simp] theorem State.setEp_box (s : State) (e : Ep) (r : Nat) : (s.setEp e).box r = s.box r := rfl
@[simp] theorem State.setEp_lock (s : State) (e : Ep) (r : Nat) : (s.setEp e).lock r = s.lock r := rfl
@[simp] theorem State.setEp_outp (s : State) (e : Ep) (r : Fin 96) : (s.setEp e).outp r = s.outp r := rfl
@[simp] theorem State.setEp_draught (s : State) (e : Ep) (r : Draught) : (s.setEp e).draught r = s.draught r := rfl

/-! ## setPort -/

@[simp] theorem State.setPort_hearths (s : State) (p : Fin 4) (x : Port) : (s.setPort p x).hearths = s.hearths := rfl
@[simp] theorem State.setPort_stks (s : State) (p : Fin 4) (x : Port) : (s.setPort p x).stks = s.stks := rfl
@[simp] theorem State.setPort_mem (s : State) (p : Fin 4) (x : Port) : (s.setPort p x).mem = s.mem := rfl
@[simp] theorem State.setPort_regs (s : State) (p : Fin 4) (x : Port) : (s.setPort p x).regs = s.regs := rfl
@[simp] theorem State.setPort_ep (s : State) (p : Fin 4) (x : Port) : (s.setPort p x).ep = s.ep := rfl
@[simp] theorem State.setPort_hub (s : State) (p : Fin 4) (x : Port) : (s.setPort p x).hub = s.hub := rfl
@[simp] theorem State.setPort_lk (s : State) (p : Fin 4) (x : Port) : (s.setPort p x).lk = { s.lk with ports := s.lk.ports.set p x } := rfl
@[simp] theorem State.setPort_felt (s : State) (p : Fin 4) (x : Port) : (s.setPort p x).felt = s.felt := rfl
@[simp] theorem State.setPort_xb (s : State) (p : Fin 4) (x : Port) : (s.setPort p x).xb = s.xb := rfl
@[simp] theorem State.setPort_bel (s : State) (p : Fin 4) (x : Port) : (s.setPort p x).bel = s.bel := rfl
@[simp] theorem State.setPort_dm (s : State) (p : Fin 4) (x : Port) : (s.setPort p x).dm = s.dm := rfl
@[simp] theorem State.setPort_afe (s : State) (p : Fin 4) (x : Port) : (s.setPort p x).afe = s.afe := rfl
@[simp] theorem State.setPort_dg (s : State) (p : Fin 4) (x : Port) : (s.setPort p x).dg = s.dg := rfl
@[simp] theorem State.setPort_pw (s : State) (p : Fin 4) (x : Port) : (s.setPort p x).pw = s.pw := rfl
@[simp] theorem State.setPort_sec (s : State) (p : Fin 4) (x : Port) : (s.setPort p x).sec = s.sec := rfl
@[simp] theorem State.setPort_pat (s : State) (p : Fin 4) (x : Port) : (s.setPort p x).pat = s.pat := rfl
@[simp] theorem State.setPort_host (s : State) (p : Fin 4) (x : Port) : (s.setPort p x).host = s.host := rfl
@[simp] theorem State.setPort_hrst (s : State) (p : Fin 4) (x : Port) : (s.setPort p x).hrst = s.hrst := rfl
@[simp] theorem State.setPort_lc (s : State) (p : Fin 4) (x : Port) : (s.setPort p x).lc = s.lc := rfl
@[simp] theorem State.setPort_bank (s : State) (p : Fin 4) (x : Port) : (s.setPort p x).bank = s.bank := rfl
@[simp] theorem State.setPort_blksel (s : State) (p : Fin 4) (x : Port) : (s.setPort p x).blksel = s.blksel := rfl
@[simp] theorem State.setPort_dset (s : State) (p : Fin 4) (x : Port) : (s.setPort p x).dset = s.dset := rfl
@[simp] theorem State.setPort_mtab (s : State) (p : Fin 4) (x : Port) : (s.setPort p x).mtab = s.mtab := rfl
@[simp] theorem State.setPort_now (s : State) (p : Fin 4) (x : Port) : (s.setPort p x).now = s.now := rfl
@[simp] theorem State.setPort_td (s : State) (p : Fin 4) (x : Port) : (s.setPort p x).td = s.td := rfl
@[simp] theorem State.setPort_nextId (s : State) (p : Fin 4) (x : Port) : (s.setPort p x).nextId = s.nextId := rfl
@[simp] theorem State.setPort_free (s : State) (p : Fin 4) (x : Port) : (s.setPort p x).free = s.free := rfl
@[simp] theorem State.setPort_pending (s : State) (p : Fin 4) (x : Port) : (s.setPort p x).pending = s.pending := rfl
@[simp] theorem State.setPort_hearth (s : State) (p : Fin 4) (x : Port) (r : Hid) : (s.setPort p x).hearth r = s.hearth r := rfl
@[simp] theorem State.setPort_stack (s : State) (p : Fin 4) (x : Port) (r : Fin 8) : (s.setPort p x).stack r = s.stack r := rfl
@[simp] theorem State.setPort_byte (s : State) (p : Fin 4) (x : Port) (r : Nat) : (s.setPort p x).byte r = s.byte r := rfl
@[simp] theorem State.setPort_reg (s : State) (p : Fin 4) (x : Port) (r : Nat) : (s.setPort p x).reg r = s.reg r := rfl
@[simp] theorem State.setPort_box (s : State) (p : Fin 4) (x : Port) (r : Nat) : (s.setPort p x).box r = s.box r := rfl
@[simp] theorem State.setPort_lock (s : State) (p : Fin 4) (x : Port) (r : Nat) : (s.setPort p x).lock r = s.lock r := rfl
@[simp] theorem State.setPort_outp (s : State) (p : Fin 4) (x : Port) (r : Fin 96) : (s.setPort p x).outp r = s.outp r := rfl
@[simp] theorem State.setPort_draught (s : State) (p : Fin 4) (x : Port) (r : Draught) : (s.setPort p x).draught r = s.draught r := rfl

/-! ## setBox -/

@[simp] theorem State.setBox_hearths (s : State) (n : Nat) (l : List Msg) : (s.setBox n l).hearths = s.hearths := rfl
@[simp] theorem State.setBox_stks (s : State) (n : Nat) (l : List Msg) : (s.setBox n l).stks = s.stks := rfl
@[simp] theorem State.setBox_mem (s : State) (n : Nat) (l : List Msg) : (s.setBox n l).mem = s.mem := rfl
@[simp] theorem State.setBox_regs (s : State) (n : Nat) (l : List Msg) : (s.setBox n l).regs = s.regs := rfl
@[simp] theorem State.setBox_ep (s : State) (n : Nat) (l : List Msg) : (s.setBox n l).ep = s.ep := rfl
@[simp] theorem State.setBox_hub (s : State) (n : Nat) (l : List Msg) : (s.setBox n l).hub = { s.hub with boxes := s.hub.boxes.set (fin 128 n) l } := rfl
@[simp] theorem State.setBox_lk (s : State) (n : Nat) (l : List Msg) : (s.setBox n l).lk = s.lk := rfl
@[simp] theorem State.setBox_felt (s : State) (n : Nat) (l : List Msg) : (s.setBox n l).felt = s.felt := rfl
@[simp] theorem State.setBox_xb (s : State) (n : Nat) (l : List Msg) : (s.setBox n l).xb = s.xb := rfl
@[simp] theorem State.setBox_bel (s : State) (n : Nat) (l : List Msg) : (s.setBox n l).bel = s.bel := rfl
@[simp] theorem State.setBox_dm (s : State) (n : Nat) (l : List Msg) : (s.setBox n l).dm = s.dm := rfl
@[simp] theorem State.setBox_afe (s : State) (n : Nat) (l : List Msg) : (s.setBox n l).afe = s.afe := rfl
@[simp] theorem State.setBox_dg (s : State) (n : Nat) (l : List Msg) : (s.setBox n l).dg = s.dg := rfl
@[simp] theorem State.setBox_pw (s : State) (n : Nat) (l : List Msg) : (s.setBox n l).pw = s.pw := rfl
@[simp] theorem State.setBox_sec (s : State) (n : Nat) (l : List Msg) : (s.setBox n l).sec = s.sec := rfl
@[simp] theorem State.setBox_pat (s : State) (n : Nat) (l : List Msg) : (s.setBox n l).pat = s.pat := rfl
@[simp] theorem State.setBox_host (s : State) (n : Nat) (l : List Msg) : (s.setBox n l).host = s.host := rfl
@[simp] theorem State.setBox_hrst (s : State) (n : Nat) (l : List Msg) : (s.setBox n l).hrst = s.hrst := rfl
@[simp] theorem State.setBox_lc (s : State) (n : Nat) (l : List Msg) : (s.setBox n l).lc = s.lc := rfl
@[simp] theorem State.setBox_bank (s : State) (n : Nat) (l : List Msg) : (s.setBox n l).bank = s.bank := rfl
@[simp] theorem State.setBox_blksel (s : State) (n : Nat) (l : List Msg) : (s.setBox n l).blksel = s.blksel := rfl
@[simp] theorem State.setBox_dset (s : State) (n : Nat) (l : List Msg) : (s.setBox n l).dset = s.dset := rfl
@[simp] theorem State.setBox_mtab (s : State) (n : Nat) (l : List Msg) : (s.setBox n l).mtab = s.mtab := rfl
@[simp] theorem State.setBox_now (s : State) (n : Nat) (l : List Msg) : (s.setBox n l).now = s.now := rfl
@[simp] theorem State.setBox_td (s : State) (n : Nat) (l : List Msg) : (s.setBox n l).td = s.td := rfl
@[simp] theorem State.setBox_nextId (s : State) (n : Nat) (l : List Msg) : (s.setBox n l).nextId = s.nextId := rfl
@[simp] theorem State.setBox_free (s : State) (n : Nat) (l : List Msg) : (s.setBox n l).free = s.free := rfl
@[simp] theorem State.setBox_pending (s : State) (n : Nat) (l : List Msg) : (s.setBox n l).pending = s.pending := rfl
@[simp] theorem State.setBox_hearth (s : State) (n : Nat) (l : List Msg) (r : Hid) : (s.setBox n l).hearth r = s.hearth r := rfl
@[simp] theorem State.setBox_stack (s : State) (n : Nat) (l : List Msg) (r : Fin 8) : (s.setBox n l).stack r = s.stack r := rfl
@[simp] theorem State.setBox_byte (s : State) (n : Nat) (l : List Msg) (r : Nat) : (s.setBox n l).byte r = s.byte r := rfl
@[simp] theorem State.setBox_reg (s : State) (n : Nat) (l : List Msg) (r : Nat) : (s.setBox n l).reg r = s.reg r := rfl
@[simp] theorem State.setBox_port (s : State) (n : Nat) (l : List Msg) (r : Fin 4) : (s.setBox n l).port r = s.port r := rfl
@[simp] theorem State.setBox_lock (s : State) (n : Nat) (l : List Msg) (r : Nat) : (s.setBox n l).lock r = s.lock r := rfl
@[simp] theorem State.setBox_outp (s : State) (n : Nat) (l : List Msg) (r : Fin 96) : (s.setBox n l).outp r = s.outp r := rfl
@[simp] theorem State.setBox_draught (s : State) (n : Nat) (l : List Msg) (r : Draught) : (s.setBox n l).draught r = s.draught r := rfl

/-! ## setLock -/

@[simp] theorem State.setLock_hearths (s : State) (n : Nat) (u : Option Nat) : (s.setLock n u).hearths = s.hearths := rfl
@[simp] theorem State.setLock_stks (s : State) (n : Nat) (u : Option Nat) : (s.setLock n u).stks = s.stks := rfl
@[simp] theorem State.setLock_mem (s : State) (n : Nat) (u : Option Nat) : (s.setLock n u).mem = s.mem := rfl
@[simp] theorem State.setLock_regs (s : State) (n : Nat) (u : Option Nat) : (s.setLock n u).regs = s.regs := rfl
@[simp] theorem State.setLock_ep (s : State) (n : Nat) (u : Option Nat) : (s.setLock n u).ep = s.ep := rfl
@[simp] theorem State.setLock_hub (s : State) (n : Nat) (u : Option Nat) : (s.setLock n u).hub = { s.hub with locks := s.hub.locks.set (fin 64 n) u } := rfl
@[simp] theorem State.setLock_lk (s : State) (n : Nat) (u : Option Nat) : (s.setLock n u).lk = s.lk := rfl
@[simp] theorem State.setLock_felt (s : State) (n : Nat) (u : Option Nat) : (s.setLock n u).felt = s.felt := rfl
@[simp] theorem State.setLock_xb (s : State) (n : Nat) (u : Option Nat) : (s.setLock n u).xb = s.xb := rfl
@[simp] theorem State.setLock_bel (s : State) (n : Nat) (u : Option Nat) : (s.setLock n u).bel = s.bel := rfl
@[simp] theorem State.setLock_dm (s : State) (n : Nat) (u : Option Nat) : (s.setLock n u).dm = s.dm := rfl
@[simp] theorem State.setLock_afe (s : State) (n : Nat) (u : Option Nat) : (s.setLock n u).afe = s.afe := rfl
@[simp] theorem State.setLock_dg (s : State) (n : Nat) (u : Option Nat) : (s.setLock n u).dg = s.dg := rfl
@[simp] theorem State.setLock_pw (s : State) (n : Nat) (u : Option Nat) : (s.setLock n u).pw = s.pw := rfl
@[simp] theorem State.setLock_sec (s : State) (n : Nat) (u : Option Nat) : (s.setLock n u).sec = s.sec := rfl
@[simp] theorem State.setLock_pat (s : State) (n : Nat) (u : Option Nat) : (s.setLock n u).pat = s.pat := rfl
@[simp] theorem State.setLock_host (s : State) (n : Nat) (u : Option Nat) : (s.setLock n u).host = s.host := rfl
@[simp] theorem State.setLock_hrst (s : State) (n : Nat) (u : Option Nat) : (s.setLock n u).hrst = s.hrst := rfl
@[simp] theorem State.setLock_lc (s : State) (n : Nat) (u : Option Nat) : (s.setLock n u).lc = s.lc := rfl
@[simp] theorem State.setLock_bank (s : State) (n : Nat) (u : Option Nat) : (s.setLock n u).bank = s.bank := rfl
@[simp] theorem State.setLock_blksel (s : State) (n : Nat) (u : Option Nat) : (s.setLock n u).blksel = s.blksel := rfl
@[simp] theorem State.setLock_dset (s : State) (n : Nat) (u : Option Nat) : (s.setLock n u).dset = s.dset := rfl
@[simp] theorem State.setLock_mtab (s : State) (n : Nat) (u : Option Nat) : (s.setLock n u).mtab = s.mtab := rfl
@[simp] theorem State.setLock_now (s : State) (n : Nat) (u : Option Nat) : (s.setLock n u).now = s.now := rfl
@[simp] theorem State.setLock_td (s : State) (n : Nat) (u : Option Nat) : (s.setLock n u).td = s.td := rfl
@[simp] theorem State.setLock_nextId (s : State) (n : Nat) (u : Option Nat) : (s.setLock n u).nextId = s.nextId := rfl
@[simp] theorem State.setLock_free (s : State) (n : Nat) (u : Option Nat) : (s.setLock n u).free = s.free := rfl
@[simp] theorem State.setLock_pending (s : State) (n : Nat) (u : Option Nat) : (s.setLock n u).pending = s.pending := rfl
@[simp] theorem State.setLock_hearth (s : State) (n : Nat) (u : Option Nat) (r : Hid) : (s.setLock n u).hearth r = s.hearth r := rfl
@[simp] theorem State.setLock_stack (s : State) (n : Nat) (u : Option Nat) (r : Fin 8) : (s.setLock n u).stack r = s.stack r := rfl
@[simp] theorem State.setLock_byte (s : State) (n : Nat) (u : Option Nat) (r : Nat) : (s.setLock n u).byte r = s.byte r := rfl
@[simp] theorem State.setLock_reg (s : State) (n : Nat) (u : Option Nat) (r : Nat) : (s.setLock n u).reg r = s.reg r := rfl
@[simp] theorem State.setLock_port (s : State) (n : Nat) (u : Option Nat) (r : Fin 4) : (s.setLock n u).port r = s.port r := rfl
@[simp] theorem State.setLock_box (s : State) (n : Nat) (u : Option Nat) (r : Nat) : (s.setLock n u).box r = s.box r := rfl
@[simp] theorem State.setLock_outp (s : State) (n : Nat) (u : Option Nat) (r : Fin 96) : (s.setLock n u).outp r = s.outp r := rfl
@[simp] theorem State.setLock_draught (s : State) (n : Nat) (u : Option Nat) (r : Draught) : (s.setLock n u).draught r = s.draught r := rfl

/-! ## setOutp -/

@[simp] theorem State.setOutp_hearths (s : State) (k : Fin 96) (x : Outp) : (s.setOutp k x).hearths = s.hearths := rfl
@[simp] theorem State.setOutp_stks (s : State) (k : Fin 96) (x : Outp) : (s.setOutp k x).stks = s.stks := rfl
@[simp] theorem State.setOutp_mem (s : State) (k : Fin 96) (x : Outp) : (s.setOutp k x).mem = s.mem := rfl
@[simp] theorem State.setOutp_regs (s : State) (k : Fin 96) (x : Outp) : (s.setOutp k x).regs = s.regs := rfl
@[simp] theorem State.setOutp_ep (s : State) (k : Fin 96) (x : Outp) : (s.setOutp k x).ep = s.ep := rfl
@[simp] theorem State.setOutp_hub (s : State) (k : Fin 96) (x : Outp) : (s.setOutp k x).hub = s.hub := rfl
@[simp] theorem State.setOutp_lk (s : State) (k : Fin 96) (x : Outp) : (s.setOutp k x).lk = s.lk := rfl
@[simp] theorem State.setOutp_felt (s : State) (k : Fin 96) (x : Outp) : (s.setOutp k x).felt = s.felt := rfl
@[simp] theorem State.setOutp_xb (s : State) (k : Fin 96) (x : Outp) : (s.setOutp k x).xb = s.xb := rfl
@[simp] theorem State.setOutp_bel (s : State) (k : Fin 96) (x : Outp) : (s.setOutp k x).bel = s.bel := rfl
@[simp] theorem State.setOutp_dm (s : State) (k : Fin 96) (x : Outp) : (s.setOutp k x).dm = { s.dm with out := s.dm.out.set k x } := rfl
@[simp] theorem State.setOutp_afe (s : State) (k : Fin 96) (x : Outp) : (s.setOutp k x).afe = s.afe := rfl
@[simp] theorem State.setOutp_dg (s : State) (k : Fin 96) (x : Outp) : (s.setOutp k x).dg = s.dg := rfl
@[simp] theorem State.setOutp_pw (s : State) (k : Fin 96) (x : Outp) : (s.setOutp k x).pw = s.pw := rfl
@[simp] theorem State.setOutp_sec (s : State) (k : Fin 96) (x : Outp) : (s.setOutp k x).sec = s.sec := rfl
@[simp] theorem State.setOutp_pat (s : State) (k : Fin 96) (x : Outp) : (s.setOutp k x).pat = s.pat := rfl
@[simp] theorem State.setOutp_host (s : State) (k : Fin 96) (x : Outp) : (s.setOutp k x).host = s.host := rfl
@[simp] theorem State.setOutp_hrst (s : State) (k : Fin 96) (x : Outp) : (s.setOutp k x).hrst = s.hrst := rfl
@[simp] theorem State.setOutp_lc (s : State) (k : Fin 96) (x : Outp) : (s.setOutp k x).lc = s.lc := rfl
@[simp] theorem State.setOutp_bank (s : State) (k : Fin 96) (x : Outp) : (s.setOutp k x).bank = s.bank := rfl
@[simp] theorem State.setOutp_blksel (s : State) (k : Fin 96) (x : Outp) : (s.setOutp k x).blksel = s.blksel := rfl
@[simp] theorem State.setOutp_dset (s : State) (k : Fin 96) (x : Outp) : (s.setOutp k x).dset = s.dset := rfl
@[simp] theorem State.setOutp_mtab (s : State) (k : Fin 96) (x : Outp) : (s.setOutp k x).mtab = s.mtab := rfl
@[simp] theorem State.setOutp_now (s : State) (k : Fin 96) (x : Outp) : (s.setOutp k x).now = s.now := rfl
@[simp] theorem State.setOutp_td (s : State) (k : Fin 96) (x : Outp) : (s.setOutp k x).td = s.td := rfl
@[simp] theorem State.setOutp_nextId (s : State) (k : Fin 96) (x : Outp) : (s.setOutp k x).nextId = s.nextId := rfl
@[simp] theorem State.setOutp_free (s : State) (k : Fin 96) (x : Outp) : (s.setOutp k x).free = s.free := rfl
@[simp] theorem State.setOutp_pending (s : State) (k : Fin 96) (x : Outp) : (s.setOutp k x).pending = s.pending := rfl
@[simp] theorem State.setOutp_hearth (s : State) (k : Fin 96) (x : Outp) (r : Hid) : (s.setOutp k x).hearth r = s.hearth r := rfl
@[simp] theorem State.setOutp_stack (s : State) (k : Fin 96) (x : Outp) (r : Fin 8) : (s.setOutp k x).stack r = s.stack r := rfl
@[simp] theorem State.setOutp_byte (s : State) (k : Fin 96) (x : Outp) (r : Nat) : (s.setOutp k x).byte r = s.byte r := rfl
@[simp] theorem State.setOutp_reg (s : State) (k : Fin 96) (x : Outp) (r : Nat) : (s.setOutp k x).reg r = s.reg r := rfl
@[simp] theorem State.setOutp_port (s : State) (k : Fin 96) (x : Outp) (r : Fin 4) : (s.setOutp k x).port r = s.port r := rfl
@[simp] theorem State.setOutp_box (s : State) (k : Fin 96) (x : Outp) (r : Nat) : (s.setOutp k x).box r = s.box r := rfl
@[simp] theorem State.setOutp_lock (s : State) (k : Fin 96) (x : Outp) (r : Nat) : (s.setOutp k x).lock r = s.lock r := rfl
@[simp] theorem State.setOutp_draught (s : State) (k : Fin 96) (x : Outp) (r : Draught) : (s.setOutp k x).draught r = s.draught r := rfl

/-! ## setPh -/

@[simp] theorem State.setPh_hearths (s : State) (p : Fin 3) (x : PhaseSt) : (s.setPh p x).hearths = s.hearths := rfl
@[simp] theorem State.setPh_stks (s : State) (p : Fin 3) (x : PhaseSt) : (s.setPh p x).stks = s.stks := rfl
@[simp] theorem State.setPh_mem (s : State) (p : Fin 3) (x : PhaseSt) : (s.setPh p x).mem = s.mem := rfl
@[simp] theorem State.setPh_regs (s : State) (p : Fin 3) (x : PhaseSt) : (s.setPh p x).regs = s.regs := rfl
@[simp] theorem State.setPh_ep (s : State) (p : Fin 3) (x : PhaseSt) : (s.setPh p x).ep = s.ep := rfl
@[simp] theorem State.setPh_hub (s : State) (p : Fin 3) (x : PhaseSt) : (s.setPh p x).hub = s.hub := rfl
@[simp] theorem State.setPh_lk (s : State) (p : Fin 3) (x : PhaseSt) : (s.setPh p x).lk = s.lk := rfl
@[simp] theorem State.setPh_felt (s : State) (p : Fin 3) (x : PhaseSt) : (s.setPh p x).felt = s.felt := rfl
@[simp] theorem State.setPh_xb (s : State) (p : Fin 3) (x : PhaseSt) : (s.setPh p x).xb = s.xb := rfl
@[simp] theorem State.setPh_bel (s : State) (p : Fin 3) (x : PhaseSt) : (s.setPh p x).bel = s.bel := rfl
@[simp] theorem State.setPh_dm (s : State) (p : Fin 3) (x : PhaseSt) : (s.setPh p x).dm = { s.dm with ph := s.dm.ph.set p x } := rfl
@[simp] theorem State.setPh_afe (s : State) (p : Fin 3) (x : PhaseSt) : (s.setPh p x).afe = s.afe := rfl
@[simp] theorem State.setPh_dg (s : State) (p : Fin 3) (x : PhaseSt) : (s.setPh p x).dg = s.dg := rfl
@[simp] theorem State.setPh_pw (s : State) (p : Fin 3) (x : PhaseSt) : (s.setPh p x).pw = s.pw := rfl
@[simp] theorem State.setPh_sec (s : State) (p : Fin 3) (x : PhaseSt) : (s.setPh p x).sec = s.sec := rfl
@[simp] theorem State.setPh_pat (s : State) (p : Fin 3) (x : PhaseSt) : (s.setPh p x).pat = s.pat := rfl
@[simp] theorem State.setPh_host (s : State) (p : Fin 3) (x : PhaseSt) : (s.setPh p x).host = s.host := rfl
@[simp] theorem State.setPh_hrst (s : State) (p : Fin 3) (x : PhaseSt) : (s.setPh p x).hrst = s.hrst := rfl
@[simp] theorem State.setPh_lc (s : State) (p : Fin 3) (x : PhaseSt) : (s.setPh p x).lc = s.lc := rfl
@[simp] theorem State.setPh_bank (s : State) (p : Fin 3) (x : PhaseSt) : (s.setPh p x).bank = s.bank := rfl
@[simp] theorem State.setPh_blksel (s : State) (p : Fin 3) (x : PhaseSt) : (s.setPh p x).blksel = s.blksel := rfl
@[simp] theorem State.setPh_dset (s : State) (p : Fin 3) (x : PhaseSt) : (s.setPh p x).dset = s.dset := rfl
@[simp] theorem State.setPh_mtab (s : State) (p : Fin 3) (x : PhaseSt) : (s.setPh p x).mtab = s.mtab := rfl
@[simp] theorem State.setPh_now (s : State) (p : Fin 3) (x : PhaseSt) : (s.setPh p x).now = s.now := rfl
@[simp] theorem State.setPh_td (s : State) (p : Fin 3) (x : PhaseSt) : (s.setPh p x).td = s.td := rfl
@[simp] theorem State.setPh_nextId (s : State) (p : Fin 3) (x : PhaseSt) : (s.setPh p x).nextId = s.nextId := rfl
@[simp] theorem State.setPh_free (s : State) (p : Fin 3) (x : PhaseSt) : (s.setPh p x).free = s.free := rfl
@[simp] theorem State.setPh_pending (s : State) (p : Fin 3) (x : PhaseSt) : (s.setPh p x).pending = s.pending := rfl
@[simp] theorem State.setPh_hearth (s : State) (p : Fin 3) (x : PhaseSt) (r : Hid) : (s.setPh p x).hearth r = s.hearth r := rfl
@[simp] theorem State.setPh_stack (s : State) (p : Fin 3) (x : PhaseSt) (r : Fin 8) : (s.setPh p x).stack r = s.stack r := rfl
@[simp] theorem State.setPh_byte (s : State) (p : Fin 3) (x : PhaseSt) (r : Nat) : (s.setPh p x).byte r = s.byte r := rfl
@[simp] theorem State.setPh_reg (s : State) (p : Fin 3) (x : PhaseSt) (r : Nat) : (s.setPh p x).reg r = s.reg r := rfl
@[simp] theorem State.setPh_port (s : State) (p : Fin 3) (x : PhaseSt) (r : Fin 4) : (s.setPh p x).port r = s.port r := rfl
@[simp] theorem State.setPh_box (s : State) (p : Fin 3) (x : PhaseSt) (r : Nat) : (s.setPh p x).box r = s.box r := rfl
@[simp] theorem State.setPh_lock (s : State) (p : Fin 3) (x : PhaseSt) (r : Nat) : (s.setPh p x).lock r = s.lock r := rfl
@[simp] theorem State.setPh_outp (s : State) (p : Fin 3) (x : PhaseSt) (r : Fin 96) : (s.setPh p x).outp r = s.outp r := rfl
@[simp] theorem State.setPh_draught (s : State) (p : Fin 3) (x : PhaseSt) (r : Draught) : (s.setPh p x).draught r = s.draught r := rfl

/-! ## setAfe -/

@[simp] theorem State.setAfe_hearths (s : State) (a : Afe) : (s.setAfe a).hearths = s.hearths := rfl
@[simp] theorem State.setAfe_stks (s : State) (a : Afe) : (s.setAfe a).stks = s.stks := rfl
@[simp] theorem State.setAfe_mem (s : State) (a : Afe) : (s.setAfe a).mem = s.mem := rfl
@[simp] theorem State.setAfe_regs (s : State) (a : Afe) : (s.setAfe a).regs = s.regs := rfl
@[simp] theorem State.setAfe_ep (s : State) (a : Afe) : (s.setAfe a).ep = s.ep := rfl
@[simp] theorem State.setAfe_hub (s : State) (a : Afe) : (s.setAfe a).hub = s.hub := rfl
@[simp] theorem State.setAfe_lk (s : State) (a : Afe) : (s.setAfe a).lk = s.lk := rfl
@[simp] theorem State.setAfe_felt (s : State) (a : Afe) : (s.setAfe a).felt = s.felt := rfl
@[simp] theorem State.setAfe_xb (s : State) (a : Afe) : (s.setAfe a).xb = s.xb := rfl
@[simp] theorem State.setAfe_bel (s : State) (a : Afe) : (s.setAfe a).bel = s.bel := rfl
@[simp] theorem State.setAfe_dm (s : State) (a : Afe) : (s.setAfe a).dm = s.dm := rfl
@[simp] theorem State.setAfe_afe (s : State) (a : Afe) : (s.setAfe a).afe = a := rfl
@[simp] theorem State.setAfe_dg (s : State) (a : Afe) : (s.setAfe a).dg = s.dg := rfl
@[simp] theorem State.setAfe_pw (s : State) (a : Afe) : (s.setAfe a).pw = s.pw := rfl
@[simp] theorem State.setAfe_sec (s : State) (a : Afe) : (s.setAfe a).sec = s.sec := rfl
@[simp] theorem State.setAfe_pat (s : State) (a : Afe) : (s.setAfe a).pat = s.pat := rfl
@[simp] theorem State.setAfe_host (s : State) (a : Afe) : (s.setAfe a).host = s.host := rfl
@[simp] theorem State.setAfe_hrst (s : State) (a : Afe) : (s.setAfe a).hrst = s.hrst := rfl
@[simp] theorem State.setAfe_lc (s : State) (a : Afe) : (s.setAfe a).lc = s.lc := rfl
@[simp] theorem State.setAfe_bank (s : State) (a : Afe) : (s.setAfe a).bank = s.bank := rfl
@[simp] theorem State.setAfe_blksel (s : State) (a : Afe) : (s.setAfe a).blksel = s.blksel := rfl
@[simp] theorem State.setAfe_dset (s : State) (a : Afe) : (s.setAfe a).dset = s.dset := rfl
@[simp] theorem State.setAfe_mtab (s : State) (a : Afe) : (s.setAfe a).mtab = s.mtab := rfl
@[simp] theorem State.setAfe_now (s : State) (a : Afe) : (s.setAfe a).now = s.now := rfl
@[simp] theorem State.setAfe_td (s : State) (a : Afe) : (s.setAfe a).td = s.td := rfl
@[simp] theorem State.setAfe_nextId (s : State) (a : Afe) : (s.setAfe a).nextId = s.nextId := rfl
@[simp] theorem State.setAfe_free (s : State) (a : Afe) : (s.setAfe a).free = s.free := rfl
@[simp] theorem State.setAfe_pending (s : State) (a : Afe) : (s.setAfe a).pending = s.pending := rfl
@[simp] theorem State.setAfe_hearth (s : State) (a : Afe) (r : Hid) : (s.setAfe a).hearth r = s.hearth r := rfl
@[simp] theorem State.setAfe_stack (s : State) (a : Afe) (r : Fin 8) : (s.setAfe a).stack r = s.stack r := rfl
@[simp] theorem State.setAfe_byte (s : State) (a : Afe) (r : Nat) : (s.setAfe a).byte r = s.byte r := rfl
@[simp] theorem State.setAfe_reg (s : State) (a : Afe) (r : Nat) : (s.setAfe a).reg r = s.reg r := rfl
@[simp] theorem State.setAfe_port (s : State) (a : Afe) (r : Fin 4) : (s.setAfe a).port r = s.port r := rfl
@[simp] theorem State.setAfe_box (s : State) (a : Afe) (r : Nat) : (s.setAfe a).box r = s.box r := rfl
@[simp] theorem State.setAfe_lock (s : State) (a : Afe) (r : Nat) : (s.setAfe a).lock r = s.lock r := rfl
@[simp] theorem State.setAfe_outp (s : State) (a : Afe) (r : Fin 96) : (s.setAfe a).outp r = s.outp r := rfl
@[simp] theorem State.setAfe_draught (s : State) (a : Afe) (r : Draught) : (s.setAfe a).draught r = s.draught r := rfl

/-! ## setBel -/

@[simp] theorem State.setBel_hearths (s : State) (e : Fin 2) (b : Bel) : (s.setBel e b).hearths = s.hearths := rfl
@[simp] theorem State.setBel_stks (s : State) (e : Fin 2) (b : Bel) : (s.setBel e b).stks = s.stks := rfl
@[simp] theorem State.setBel_mem (s : State) (e : Fin 2) (b : Bel) : (s.setBel e b).mem = s.mem := rfl
@[simp] theorem State.setBel_regs (s : State) (e : Fin 2) (b : Bel) : (s.setBel e b).regs = s.regs := rfl
@[simp] theorem State.setBel_ep (s : State) (e : Fin 2) (b : Bel) : (s.setBel e b).ep = s.ep := rfl
@[simp] theorem State.setBel_hub (s : State) (e : Fin 2) (b : Bel) : (s.setBel e b).hub = s.hub := rfl
@[simp] theorem State.setBel_lk (s : State) (e : Fin 2) (b : Bel) : (s.setBel e b).lk = s.lk := rfl
@[simp] theorem State.setBel_felt (s : State) (e : Fin 2) (b : Bel) : (s.setBel e b).felt = s.felt := rfl
@[simp] theorem State.setBel_xb (s : State) (e : Fin 2) (b : Bel) : (s.setBel e b).xb = s.xb := rfl
@[simp] theorem State.setBel_bel (s : State) (e : Fin 2) (b : Bel) : (s.setBel e b).bel = s.bel.set e b := rfl
@[simp] theorem State.setBel_dm (s : State) (e : Fin 2) (b : Bel) : (s.setBel e b).dm = s.dm := rfl
@[simp] theorem State.setBel_afe (s : State) (e : Fin 2) (b : Bel) : (s.setBel e b).afe = s.afe := rfl
@[simp] theorem State.setBel_dg (s : State) (e : Fin 2) (b : Bel) : (s.setBel e b).dg = s.dg := rfl
@[simp] theorem State.setBel_pw (s : State) (e : Fin 2) (b : Bel) : (s.setBel e b).pw = s.pw := rfl
@[simp] theorem State.setBel_sec (s : State) (e : Fin 2) (b : Bel) : (s.setBel e b).sec = s.sec := rfl
@[simp] theorem State.setBel_pat (s : State) (e : Fin 2) (b : Bel) : (s.setBel e b).pat = s.pat := rfl
@[simp] theorem State.setBel_host (s : State) (e : Fin 2) (b : Bel) : (s.setBel e b).host = s.host := rfl
@[simp] theorem State.setBel_hrst (s : State) (e : Fin 2) (b : Bel) : (s.setBel e b).hrst = s.hrst := rfl
@[simp] theorem State.setBel_lc (s : State) (e : Fin 2) (b : Bel) : (s.setBel e b).lc = s.lc := rfl
@[simp] theorem State.setBel_bank (s : State) (e : Fin 2) (b : Bel) : (s.setBel e b).bank = s.bank := rfl
@[simp] theorem State.setBel_blksel (s : State) (e : Fin 2) (b : Bel) : (s.setBel e b).blksel = s.blksel := rfl
@[simp] theorem State.setBel_dset (s : State) (e : Fin 2) (b : Bel) : (s.setBel e b).dset = s.dset := rfl
@[simp] theorem State.setBel_mtab (s : State) (e : Fin 2) (b : Bel) : (s.setBel e b).mtab = s.mtab := rfl
@[simp] theorem State.setBel_now (s : State) (e : Fin 2) (b : Bel) : (s.setBel e b).now = s.now := rfl
@[simp] theorem State.setBel_td (s : State) (e : Fin 2) (b : Bel) : (s.setBel e b).td = s.td := rfl
@[simp] theorem State.setBel_nextId (s : State) (e : Fin 2) (b : Bel) : (s.setBel e b).nextId = s.nextId := rfl
@[simp] theorem State.setBel_free (s : State) (e : Fin 2) (b : Bel) : (s.setBel e b).free = s.free := rfl
@[simp] theorem State.setBel_pending (s : State) (e : Fin 2) (b : Bel) : (s.setBel e b).pending = s.pending := rfl
@[simp] theorem State.setBel_hearth (s : State) (e : Fin 2) (b : Bel) (r : Hid) : (s.setBel e b).hearth r = s.hearth r := rfl
@[simp] theorem State.setBel_stack (s : State) (e : Fin 2) (b : Bel) (r : Fin 8) : (s.setBel e b).stack r = s.stack r := rfl
@[simp] theorem State.setBel_byte (s : State) (e : Fin 2) (b : Bel) (r : Nat) : (s.setBel e b).byte r = s.byte r := rfl
@[simp] theorem State.setBel_reg (s : State) (e : Fin 2) (b : Bel) (r : Nat) : (s.setBel e b).reg r = s.reg r := rfl
@[simp] theorem State.setBel_port (s : State) (e : Fin 2) (b : Bel) (r : Fin 4) : (s.setBel e b).port r = s.port r := rfl
@[simp] theorem State.setBel_box (s : State) (e : Fin 2) (b : Bel) (r : Nat) : (s.setBel e b).box r = s.box r := rfl
@[simp] theorem State.setBel_lock (s : State) (e : Fin 2) (b : Bel) (r : Nat) : (s.setBel e b).lock r = s.lock r := rfl
@[simp] theorem State.setBel_outp (s : State) (e : Fin 2) (b : Bel) (r : Fin 96) : (s.setBel e b).outp r = s.outp r := rfl
@[simp] theorem State.setBel_draught (s : State) (e : Fin 2) (b : Bel) (r : Draught) : (s.setBel e b).draught r = s.draught r := rfl

/-! ## setDraught -/

@[simp] theorem State.setDraught_hearths (s : State) (d : Draught) (x : Dgt) : (s.setDraught d x).hearths = s.hearths := rfl
@[simp] theorem State.setDraught_stks (s : State) (d : Draught) (x : Dgt) : (s.setDraught d x).stks = s.stks := rfl
@[simp] theorem State.setDraught_mem (s : State) (d : Draught) (x : Dgt) : (s.setDraught d x).mem = s.mem := rfl
@[simp] theorem State.setDraught_regs (s : State) (d : Draught) (x : Dgt) : (s.setDraught d x).regs = s.regs := rfl
@[simp] theorem State.setDraught_ep (s : State) (d : Draught) (x : Dgt) : (s.setDraught d x).ep = s.ep := rfl
@[simp] theorem State.setDraught_hub (s : State) (d : Draught) (x : Dgt) : (s.setDraught d x).hub = s.hub := rfl
@[simp] theorem State.setDraught_lk (s : State) (d : Draught) (x : Dgt) : (s.setDraught d x).lk = s.lk := rfl
@[simp] theorem State.setDraught_felt (s : State) (d : Draught) (x : Dgt) : (s.setDraught d x).felt = s.felt := rfl
@[simp] theorem State.setDraught_xb (s : State) (d : Draught) (x : Dgt) : (s.setDraught d x).xb = s.xb := rfl
@[simp] theorem State.setDraught_bel (s : State) (d : Draught) (x : Dgt) : (s.setDraught d x).bel = s.bel := rfl
@[simp] theorem State.setDraught_dm (s : State) (d : Draught) (x : Dgt) : (s.setDraught d x).dm = s.dm := rfl
@[simp] theorem State.setDraught_afe (s : State) (d : Draught) (x : Dgt) : (s.setDraught d x).afe = s.afe := rfl
@[simp] theorem State.setDraught_dg (s : State) (d : Draught) (x : Dgt) : (s.setDraught d x).dg = s.dg.set (dgIx d) x := rfl
@[simp] theorem State.setDraught_pw (s : State) (d : Draught) (x : Dgt) : (s.setDraught d x).pw = s.pw := rfl
@[simp] theorem State.setDraught_sec (s : State) (d : Draught) (x : Dgt) : (s.setDraught d x).sec = s.sec := rfl
@[simp] theorem State.setDraught_pat (s : State) (d : Draught) (x : Dgt) : (s.setDraught d x).pat = s.pat := rfl
@[simp] theorem State.setDraught_host (s : State) (d : Draught) (x : Dgt) : (s.setDraught d x).host = s.host := rfl
@[simp] theorem State.setDraught_hrst (s : State) (d : Draught) (x : Dgt) : (s.setDraught d x).hrst = s.hrst := rfl
@[simp] theorem State.setDraught_lc (s : State) (d : Draught) (x : Dgt) : (s.setDraught d x).lc = s.lc := rfl
@[simp] theorem State.setDraught_bank (s : State) (d : Draught) (x : Dgt) : (s.setDraught d x).bank = s.bank := rfl
@[simp] theorem State.setDraught_blksel (s : State) (d : Draught) (x : Dgt) : (s.setDraught d x).blksel = s.blksel := rfl
@[simp] theorem State.setDraught_dset (s : State) (d : Draught) (x : Dgt) : (s.setDraught d x).dset = s.dset := rfl
@[simp] theorem State.setDraught_mtab (s : State) (d : Draught) (x : Dgt) : (s.setDraught d x).mtab = s.mtab := rfl
@[simp] theorem State.setDraught_now (s : State) (d : Draught) (x : Dgt) : (s.setDraught d x).now = s.now := rfl
@[simp] theorem State.setDraught_td (s : State) (d : Draught) (x : Dgt) : (s.setDraught d x).td = s.td := rfl
@[simp] theorem State.setDraught_nextId (s : State) (d : Draught) (x : Dgt) : (s.setDraught d x).nextId = s.nextId := rfl
@[simp] theorem State.setDraught_free (s : State) (d : Draught) (x : Dgt) : (s.setDraught d x).free = s.free := rfl
@[simp] theorem State.setDraught_pending (s : State) (d : Draught) (x : Dgt) : (s.setDraught d x).pending = s.pending := rfl
@[simp] theorem State.setDraught_hearth (s : State) (d : Draught) (x : Dgt) (r : Hid) : (s.setDraught d x).hearth r = s.hearth r := rfl
@[simp] theorem State.setDraught_stack (s : State) (d : Draught) (x : Dgt) (r : Fin 8) : (s.setDraught d x).stack r = s.stack r := rfl
@[simp] theorem State.setDraught_byte (s : State) (d : Draught) (x : Dgt) (r : Nat) : (s.setDraught d x).byte r = s.byte r := rfl
@[simp] theorem State.setDraught_reg (s : State) (d : Draught) (x : Dgt) (r : Nat) : (s.setDraught d x).reg r = s.reg r := rfl
@[simp] theorem State.setDraught_port (s : State) (d : Draught) (x : Dgt) (r : Fin 4) : (s.setDraught d x).port r = s.port r := rfl
@[simp] theorem State.setDraught_box (s : State) (d : Draught) (x : Dgt) (r : Nat) : (s.setDraught d x).box r = s.box r := rfl
@[simp] theorem State.setDraught_lock (s : State) (d : Draught) (x : Dgt) (r : Nat) : (s.setDraught d x).lock r = s.lock r := rfl
@[simp] theorem State.setDraught_outp (s : State) (d : Draught) (x : Dgt) (r : Fin 96) : (s.setDraught d x).outp r = s.outp r := rfl

/-! ## setPat -/

@[simp] theorem State.setPat_hearths (s : State) (p : Pat) : (s.setPat p).hearths = s.hearths := rfl
@[simp] theorem State.setPat_stks (s : State) (p : Pat) : (s.setPat p).stks = s.stks := rfl
@[simp] theorem State.setPat_mem (s : State) (p : Pat) : (s.setPat p).mem = s.mem := rfl
@[simp] theorem State.setPat_regs (s : State) (p : Pat) : (s.setPat p).regs = s.regs := rfl
@[simp] theorem State.setPat_ep (s : State) (p : Pat) : (s.setPat p).ep = s.ep := rfl
@[simp] theorem State.setPat_hub (s : State) (p : Pat) : (s.setPat p).hub = s.hub := rfl
@[simp] theorem State.setPat_lk (s : State) (p : Pat) : (s.setPat p).lk = s.lk := rfl
@[simp] theorem State.setPat_felt (s : State) (p : Pat) : (s.setPat p).felt = s.felt := rfl
@[simp] theorem State.setPat_xb (s : State) (p : Pat) : (s.setPat p).xb = s.xb := rfl
@[simp] theorem State.setPat_bel (s : State) (p : Pat) : (s.setPat p).bel = s.bel := rfl
@[simp] theorem State.setPat_dm (s : State) (p : Pat) : (s.setPat p).dm = s.dm := rfl
@[simp] theorem State.setPat_afe (s : State) (p : Pat) : (s.setPat p).afe = s.afe := rfl
@[simp] theorem State.setPat_dg (s : State) (p : Pat) : (s.setPat p).dg = s.dg := rfl
@[simp] theorem State.setPat_pw (s : State) (p : Pat) : (s.setPat p).pw = s.pw := rfl
@[simp] theorem State.setPat_sec (s : State) (p : Pat) : (s.setPat p).sec = s.sec := rfl
@[simp] theorem State.setPat_pat (s : State) (p : Pat) : (s.setPat p).pat = p := rfl
@[simp] theorem State.setPat_host (s : State) (p : Pat) : (s.setPat p).host = s.host := rfl
@[simp] theorem State.setPat_hrst (s : State) (p : Pat) : (s.setPat p).hrst = s.hrst := rfl
@[simp] theorem State.setPat_lc (s : State) (p : Pat) : (s.setPat p).lc = s.lc := rfl
@[simp] theorem State.setPat_bank (s : State) (p : Pat) : (s.setPat p).bank = s.bank := rfl
@[simp] theorem State.setPat_blksel (s : State) (p : Pat) : (s.setPat p).blksel = s.blksel := rfl
@[simp] theorem State.setPat_dset (s : State) (p : Pat) : (s.setPat p).dset = s.dset := rfl
@[simp] theorem State.setPat_mtab (s : State) (p : Pat) : (s.setPat p).mtab = s.mtab := rfl
@[simp] theorem State.setPat_now (s : State) (p : Pat) : (s.setPat p).now = s.now := rfl
@[simp] theorem State.setPat_td (s : State) (p : Pat) : (s.setPat p).td = s.td := rfl
@[simp] theorem State.setPat_nextId (s : State) (p : Pat) : (s.setPat p).nextId = s.nextId := rfl
@[simp] theorem State.setPat_free (s : State) (p : Pat) : (s.setPat p).free = s.free := rfl
@[simp] theorem State.setPat_pending (s : State) (p : Pat) : (s.setPat p).pending = s.pending := rfl
@[simp] theorem State.setPat_hearth (s : State) (p : Pat) (r : Hid) : (s.setPat p).hearth r = s.hearth r := rfl
@[simp] theorem State.setPat_stack (s : State) (p : Pat) (r : Fin 8) : (s.setPat p).stack r = s.stack r := rfl
@[simp] theorem State.setPat_byte (s : State) (p : Pat) (r : Nat) : (s.setPat p).byte r = s.byte r := rfl
@[simp] theorem State.setPat_reg (s : State) (p : Pat) (r : Nat) : (s.setPat p).reg r = s.reg r := rfl
@[simp] theorem State.setPat_port (s : State) (p : Pat) (r : Fin 4) : (s.setPat p).port r = s.port r := rfl
@[simp] theorem State.setPat_box (s : State) (p : Pat) (r : Nat) : (s.setPat p).box r = s.box r := rfl
@[simp] theorem State.setPat_lock (s : State) (p : Pat) (r : Nat) : (s.setPat p).lock r = s.lock r := rfl
@[simp] theorem State.setPat_outp (s : State) (p : Pat) (r : Fin 96) : (s.setPat p).outp r = s.outp r := rfl
@[simp] theorem State.setPat_draught (s : State) (p : Pat) (r : Draught) : (s.setPat p).draught r = s.draught r := rfl

/-! ## setPw -/

@[simp] theorem State.setPw_hearths (s : State) (p : Pw) : (s.setPw p).hearths = s.hearths := rfl
@[simp] theorem State.setPw_stks (s : State) (p : Pw) : (s.setPw p).stks = s.stks := rfl
@[simp] theorem State.setPw_mem (s : State) (p : Pw) : (s.setPw p).mem = s.mem := rfl
@[simp] theorem State.setPw_regs (s : State) (p : Pw) : (s.setPw p).regs = s.regs := rfl
@[simp] theorem State.setPw_ep (s : State) (p : Pw) : (s.setPw p).ep = s.ep := rfl
@[simp] theorem State.setPw_hub (s : State) (p : Pw) : (s.setPw p).hub = s.hub := rfl
@[simp] theorem State.setPw_lk (s : State) (p : Pw) : (s.setPw p).lk = s.lk := rfl
@[simp] theorem State.setPw_felt (s : State) (p : Pw) : (s.setPw p).felt = s.felt := rfl
@[simp] theorem State.setPw_xb (s : State) (p : Pw) : (s.setPw p).xb = s.xb := rfl
@[simp] theorem State.setPw_bel (s : State) (p : Pw) : (s.setPw p).bel = s.bel := rfl
@[simp] theorem State.setPw_dm (s : State) (p : Pw) : (s.setPw p).dm = s.dm := rfl
@[simp] theorem State.setPw_afe (s : State) (p : Pw) : (s.setPw p).afe = s.afe := rfl
@[simp] theorem State.setPw_dg (s : State) (p : Pw) : (s.setPw p).dg = s.dg := rfl
@[simp] theorem State.setPw_pw (s : State) (p : Pw) : (s.setPw p).pw = p := rfl
@[simp] theorem State.setPw_sec (s : State) (p : Pw) : (s.setPw p).sec = s.sec := rfl
@[simp] theorem State.setPw_pat (s : State) (p : Pw) : (s.setPw p).pat = s.pat := rfl
@[simp] theorem State.setPw_host (s : State) (p : Pw) : (s.setPw p).host = s.host := rfl
@[simp] theorem State.setPw_hrst (s : State) (p : Pw) : (s.setPw p).hrst = s.hrst := rfl
@[simp] theorem State.setPw_lc (s : State) (p : Pw) : (s.setPw p).lc = s.lc := rfl
@[simp] theorem State.setPw_bank (s : State) (p : Pw) : (s.setPw p).bank = s.bank := rfl
@[simp] theorem State.setPw_blksel (s : State) (p : Pw) : (s.setPw p).blksel = s.blksel := rfl
@[simp] theorem State.setPw_dset (s : State) (p : Pw) : (s.setPw p).dset = s.dset := rfl
@[simp] theorem State.setPw_mtab (s : State) (p : Pw) : (s.setPw p).mtab = s.mtab := rfl
@[simp] theorem State.setPw_now (s : State) (p : Pw) : (s.setPw p).now = s.now := rfl
@[simp] theorem State.setPw_td (s : State) (p : Pw) : (s.setPw p).td = s.td := rfl
@[simp] theorem State.setPw_nextId (s : State) (p : Pw) : (s.setPw p).nextId = s.nextId := rfl
@[simp] theorem State.setPw_free (s : State) (p : Pw) : (s.setPw p).free = s.free := rfl
@[simp] theorem State.setPw_pending (s : State) (p : Pw) : (s.setPw p).pending = s.pending := rfl
@[simp] theorem State.setPw_hearth (s : State) (p : Pw) (r : Hid) : (s.setPw p).hearth r = s.hearth r := rfl
@[simp] theorem State.setPw_stack (s : State) (p : Pw) (r : Fin 8) : (s.setPw p).stack r = s.stack r := rfl
@[simp] theorem State.setPw_byte (s : State) (p : Pw) (r : Nat) : (s.setPw p).byte r = s.byte r := rfl
@[simp] theorem State.setPw_reg (s : State) (p : Pw) (r : Nat) : (s.setPw p).reg r = s.reg r := rfl
@[simp] theorem State.setPw_port (s : State) (p : Pw) (r : Fin 4) : (s.setPw p).port r = s.port r := rfl
@[simp] theorem State.setPw_box (s : State) (p : Pw) (r : Nat) : (s.setPw p).box r = s.box r := rfl
@[simp] theorem State.setPw_lock (s : State) (p : Pw) (r : Nat) : (s.setPw p).lock r = s.lock r := rfl
@[simp] theorem State.setPw_outp (s : State) (p : Pw) (r : Fin 96) : (s.setPw p).outp r = s.outp r := rfl
@[simp] theorem State.setPw_draught (s : State) (p : Pw) (r : Draught) : (s.setPw p).draught r = s.draught r := rfl

/-! ## setSec -/

@[simp] theorem State.setSec_hearths (s : State) (x : Sec) : (s.setSec x).hearths = s.hearths := rfl
@[simp] theorem State.setSec_stks (s : State) (x : Sec) : (s.setSec x).stks = s.stks := rfl
@[simp] theorem State.setSec_mem (s : State) (x : Sec) : (s.setSec x).mem = s.mem := rfl
@[simp] theorem State.setSec_regs (s : State) (x : Sec) : (s.setSec x).regs = s.regs := rfl
@[simp] theorem State.setSec_ep (s : State) (x : Sec) : (s.setSec x).ep = s.ep := rfl
@[simp] theorem State.setSec_hub (s : State) (x : Sec) : (s.setSec x).hub = s.hub := rfl
@[simp] theorem State.setSec_lk (s : State) (x : Sec) : (s.setSec x).lk = s.lk := rfl
@[simp] theorem State.setSec_felt (s : State) (x : Sec) : (s.setSec x).felt = s.felt := rfl
@[simp] theorem State.setSec_xb (s : State) (x : Sec) : (s.setSec x).xb = s.xb := rfl
@[simp] theorem State.setSec_bel (s : State) (x : Sec) : (s.setSec x).bel = s.bel := rfl
@[simp] theorem State.setSec_dm (s : State) (x : Sec) : (s.setSec x).dm = s.dm := rfl
@[simp] theorem State.setSec_afe (s : State) (x : Sec) : (s.setSec x).afe = s.afe := rfl
@[simp] theorem State.setSec_dg (s : State) (x : Sec) : (s.setSec x).dg = s.dg := rfl
@[simp] theorem State.setSec_pw (s : State) (x : Sec) : (s.setSec x).pw = s.pw := rfl
@[simp] theorem State.setSec_sec (s : State) (x : Sec) : (s.setSec x).sec = x := rfl
@[simp] theorem State.setSec_pat (s : State) (x : Sec) : (s.setSec x).pat = s.pat := rfl
@[simp] theorem State.setSec_host (s : State) (x : Sec) : (s.setSec x).host = s.host := rfl
@[simp] theorem State.setSec_hrst (s : State) (x : Sec) : (s.setSec x).hrst = s.hrst := rfl
@[simp] theorem State.setSec_lc (s : State) (x : Sec) : (s.setSec x).lc = s.lc := rfl
@[simp] theorem State.setSec_bank (s : State) (x : Sec) : (s.setSec x).bank = s.bank := rfl
@[simp] theorem State.setSec_blksel (s : State) (x : Sec) : (s.setSec x).blksel = s.blksel := rfl
@[simp] theorem State.setSec_dset (s : State) (x : Sec) : (s.setSec x).dset = s.dset := rfl
@[simp] theorem State.setSec_mtab (s : State) (x : Sec) : (s.setSec x).mtab = s.mtab := rfl
@[simp] theorem State.setSec_now (s : State) (x : Sec) : (s.setSec x).now = s.now := rfl
@[simp] theorem State.setSec_td (s : State) (x : Sec) : (s.setSec x).td = s.td := rfl
@[simp] theorem State.setSec_nextId (s : State) (x : Sec) : (s.setSec x).nextId = s.nextId := rfl
@[simp] theorem State.setSec_free (s : State) (x : Sec) : (s.setSec x).free = s.free := rfl
@[simp] theorem State.setSec_pending (s : State) (x : Sec) : (s.setSec x).pending = s.pending := rfl
@[simp] theorem State.setSec_hearth (s : State) (x : Sec) (r : Hid) : (s.setSec x).hearth r = s.hearth r := rfl
@[simp] theorem State.setSec_stack (s : State) (x : Sec) (r : Fin 8) : (s.setSec x).stack r = s.stack r := rfl
@[simp] theorem State.setSec_byte (s : State) (x : Sec) (r : Nat) : (s.setSec x).byte r = s.byte r := rfl
@[simp] theorem State.setSec_reg (s : State) (x : Sec) (r : Nat) : (s.setSec x).reg r = s.reg r := rfl
@[simp] theorem State.setSec_port (s : State) (x : Sec) (r : Fin 4) : (s.setSec x).port r = s.port r := rfl
@[simp] theorem State.setSec_box (s : State) (x : Sec) (r : Nat) : (s.setSec x).box r = s.box r := rfl
@[simp] theorem State.setSec_lock (s : State) (x : Sec) (r : Nat) : (s.setSec x).lock r = s.lock r := rfl
@[simp] theorem State.setSec_outp (s : State) (x : Sec) (r : Fin 96) : (s.setSec x).outp r = s.outp r := rfl
@[simp] theorem State.setSec_draught (s : State) (x : Sec) (r : Draught) : (s.setSec x).draught r = s.draught r := rfl

/-! ## setHost -/

@[simp] theorem State.setHost_hearths (s : State) (x : HostSt) : (s.setHost x).hearths = s.hearths := rfl
@[simp] theorem State.setHost_stks (s : State) (x : HostSt) : (s.setHost x).stks = s.stks := rfl
@[simp] theorem State.setHost_mem (s : State) (x : HostSt) : (s.setHost x).mem = s.mem := rfl
@[simp] theorem State.setHost_regs (s : State) (x : HostSt) : (s.setHost x).regs = s.regs := rfl
@[simp] theorem State.setHost_ep (s : State) (x : HostSt) : (s.setHost x).ep = s.ep := rfl
@[simp] theorem State.setHost_hub (s : State) (x : HostSt) : (s.setHost x).hub = s.hub := rfl
@[simp] theorem State.setHost_lk (s : State) (x : HostSt) : (s.setHost x).lk = s.lk := rfl
@[simp] theorem State.setHost_felt (s : State) (x : HostSt) : (s.setHost x).felt = s.felt := rfl
@[simp] theorem State.setHost_xb (s : State) (x : HostSt) : (s.setHost x).xb = s.xb := rfl
@[simp] theorem State.setHost_bel (s : State) (x : HostSt) : (s.setHost x).bel = s.bel := rfl
@[simp] theorem State.setHost_dm (s : State) (x : HostSt) : (s.setHost x).dm = s.dm := rfl
@[simp] theorem State.setHost_afe (s : State) (x : HostSt) : (s.setHost x).afe = s.afe := rfl
@[simp] theorem State.setHost_dg (s : State) (x : HostSt) : (s.setHost x).dg = s.dg := rfl
@[simp] theorem State.setHost_pw (s : State) (x : HostSt) : (s.setHost x).pw = s.pw := rfl
@[simp] theorem State.setHost_sec (s : State) (x : HostSt) : (s.setHost x).sec = s.sec := rfl
@[simp] theorem State.setHost_pat (s : State) (x : HostSt) : (s.setHost x).pat = s.pat := rfl
@[simp] theorem State.setHost_host (s : State) (x : HostSt) : (s.setHost x).host = x := rfl
@[simp] theorem State.setHost_hrst (s : State) (x : HostSt) : (s.setHost x).hrst = s.hrst := rfl
@[simp] theorem State.setHost_lc (s : State) (x : HostSt) : (s.setHost x).lc = s.lc := rfl
@[simp] theorem State.setHost_bank (s : State) (x : HostSt) : (s.setHost x).bank = s.bank := rfl
@[simp] theorem State.setHost_blksel (s : State) (x : HostSt) : (s.setHost x).blksel = s.blksel := rfl
@[simp] theorem State.setHost_dset (s : State) (x : HostSt) : (s.setHost x).dset = s.dset := rfl
@[simp] theorem State.setHost_mtab (s : State) (x : HostSt) : (s.setHost x).mtab = s.mtab := rfl
@[simp] theorem State.setHost_now (s : State) (x : HostSt) : (s.setHost x).now = s.now := rfl
@[simp] theorem State.setHost_td (s : State) (x : HostSt) : (s.setHost x).td = s.td := rfl
@[simp] theorem State.setHost_nextId (s : State) (x : HostSt) : (s.setHost x).nextId = s.nextId := rfl
@[simp] theorem State.setHost_free (s : State) (x : HostSt) : (s.setHost x).free = s.free := rfl
@[simp] theorem State.setHost_pending (s : State) (x : HostSt) : (s.setHost x).pending = s.pending := rfl
@[simp] theorem State.setHost_hearth (s : State) (x : HostSt) (r : Hid) : (s.setHost x).hearth r = s.hearth r := rfl
@[simp] theorem State.setHost_stack (s : State) (x : HostSt) (r : Fin 8) : (s.setHost x).stack r = s.stack r := rfl
@[simp] theorem State.setHost_byte (s : State) (x : HostSt) (r : Nat) : (s.setHost x).byte r = s.byte r := rfl
@[simp] theorem State.setHost_reg (s : State) (x : HostSt) (r : Nat) : (s.setHost x).reg r = s.reg r := rfl
@[simp] theorem State.setHost_port (s : State) (x : HostSt) (r : Fin 4) : (s.setHost x).port r = s.port r := rfl
@[simp] theorem State.setHost_box (s : State) (x : HostSt) (r : Nat) : (s.setHost x).box r = s.box r := rfl
@[simp] theorem State.setHost_lock (s : State) (x : HostSt) (r : Nat) : (s.setHost x).lock r = s.lock r := rfl
@[simp] theorem State.setHost_outp (s : State) (x : HostSt) (r : Fin 96) : (s.setHost x).outp r = s.outp r := rfl
@[simp] theorem State.setHost_draught (s : State) (x : HostSt) (r : Draught) : (s.setHost x).draught r = s.draught r := rfl

/-! ## Hearths, stacks and ports in their vectors -/

@[simp] theorem State.hearth_setHearth_self (s : State) (h : Hid) (x : Hearth) : (s.setHearth h x).hearth h = x := by
  simp [State.hearth, State.setHearth]
@[simp] theorem State.hearth_setHearth_ne (s : State) {h g : Hid} (x : Hearth) (e : g ≠ h) : (s.setHearth h x).hearth g = s.hearth g := by
  have : h.val ≠ g.val := fun k => e (Fin.ext k.symm)
  simp [State.hearth, State.setHearth, this]
@[simp] theorem State.setHearth_setHearth (s : State) (h : Hid) (x y : Hearth) : (s.setHearth h x).setHearth h y = s.setHearth h y := by
  simp [State.setHearth]
@[simp] theorem State.setHearth_self (s : State) (h : Hid) : s.setHearth h (s.hearth h) = s := by
  simp [State.hearth, State.setHearth]

@[simp] theorem State.stack_setStack_self (s : State) (h : Fin 8) (x : Stack) : (s.setStack h x).stack h = x := by
  simp [State.stack, State.setStack]
@[simp] theorem State.stack_setStack_ne (s : State) {h g : Fin 8} (x : Stack) (e : g ≠ h) : (s.setStack h x).stack g = s.stack g := by
  have : h.val ≠ g.val := fun k => e (Fin.ext k.symm)
  simp [State.stack, State.setStack, this]
@[simp] theorem State.setStack_setStack (s : State) (h : Fin 8) (x y : Stack) : (s.setStack h x).setStack h y = s.setStack h y := by
  simp [State.setStack]
@[simp] theorem State.setStack_self (s : State) (h : Fin 8) : s.setStack h (s.stack h) = s := by
  simp [State.stack, State.setStack]

@[simp] theorem State.port_setPort_self (s : State) (h : Fin 4) (x : Port) : (s.setPort h x).port h = x := by
  simp [State.port, State.setPort]
@[simp] theorem State.port_setPort_ne (s : State) {h g : Fin 4} (x : Port) (e : g ≠ h) : (s.setPort h x).port g = s.port g := by
  have : h.val ≠ g.val := fun k => e (Fin.ext k.symm)
  simp [State.port, State.setPort, this]
@[simp] theorem State.setPort_setPort (s : State) (h : Fin 4) (x y : Port) : (s.setPort h x).setPort h y = s.setPort h y := by
  simp [State.setPort]
@[simp] theorem State.setPort_self (s : State) (h : Fin 4) : s.setPort h (s.port h) = s := by
  simp [State.port, State.setPort]

@[simp] theorem State.outp_setOutp_self (s : State) (h : Fin 96) (x : Outp) : (s.setOutp h x).outp h = x := by
  simp [State.outp, State.setOutp]
@[simp] theorem State.outp_setOutp_ne (s : State) {h g : Fin 96} (x : Outp) (e : g ≠ h) : (s.setOutp h x).outp g = s.outp g := by
  have : h.val ≠ g.val := fun k => e (Fin.ext k.symm)
  simp [State.outp, State.setOutp, this]
@[simp] theorem State.setOutp_setOutp (s : State) (h : Fin 96) (x y : Outp) : (s.setOutp h x).setOutp h y = s.setOutp h y := by
  simp [State.setOutp]
@[simp] theorem State.setOutp_self (s : State) (h : Fin 96) : s.setOutp h (s.outp h) = s := by
  simp [State.outp, State.setOutp]

@[simp] theorem State.modHearth_eq (s : State) (h : Hid) (f : Hearth → Hearth) : s.modHearth h f = s.setHearth h (f (s.hearth h)) := rfl
@[simp] theorem State.modPort_eq (s : State) (p : Fin 4) (f : Port → Port) : s.modPort p f = s.setPort p (f (s.port p)) := rfl
@[simp] theorem State.modOutp_eq (s : State) (k : Fin 96) (f : Outp → Outp) : s.modOutp k f = s.setOutp k (f (s.outp k)) := rfl
@[simp] theorem State.modReg_eq (s : State) (a : Nat) (f : Word → Word) : s.modReg a f = s.setReg a (f (s.reg a)) := rfl
@[simp] theorem State.mapHearths_hearth (s : State) (f : Hid → Hearth → Hearth) (h : Hid) :
    (s.mapHearths f).hearth h = f h (s.hearth h) := by
  simp [State.mapHearths, State.hearth]

@[simp] theorem State.mapHearths_stks (s : State) (f : Hid → Hearth → Hearth) : (s.mapHearths f).stks = s.stks := by simp only [State.mapHearths]
@[simp] theorem State.mapHearths_mem (s : State) (f : Hid → Hearth → Hearth) : (s.mapHearths f).mem = s.mem := by simp only [State.mapHearths]
@[simp] theorem State.mapHearths_regs (s : State) (f : Hid → Hearth → Hearth) : (s.mapHearths f).regs = s.regs := by simp only [State.mapHearths]
@[simp] theorem State.mapHearths_ep (s : State) (f : Hid → Hearth → Hearth) : (s.mapHearths f).ep = s.ep := by simp only [State.mapHearths]
@[simp] theorem State.mapHearths_hub (s : State) (f : Hid → Hearth → Hearth) : (s.mapHearths f).hub = s.hub := by simp only [State.mapHearths]
@[simp] theorem State.mapHearths_lk (s : State) (f : Hid → Hearth → Hearth) : (s.mapHearths f).lk = s.lk := by simp only [State.mapHearths]
@[simp] theorem State.mapHearths_felt (s : State) (f : Hid → Hearth → Hearth) : (s.mapHearths f).felt = s.felt := by simp only [State.mapHearths]
@[simp] theorem State.mapHearths_xb (s : State) (f : Hid → Hearth → Hearth) : (s.mapHearths f).xb = s.xb := by simp only [State.mapHearths]
@[simp] theorem State.mapHearths_bel (s : State) (f : Hid → Hearth → Hearth) : (s.mapHearths f).bel = s.bel := by simp only [State.mapHearths]
@[simp] theorem State.mapHearths_dm (s : State) (f : Hid → Hearth → Hearth) : (s.mapHearths f).dm = s.dm := by simp only [State.mapHearths]
@[simp] theorem State.mapHearths_afe (s : State) (f : Hid → Hearth → Hearth) : (s.mapHearths f).afe = s.afe := by simp only [State.mapHearths]
@[simp] theorem State.mapHearths_dg (s : State) (f : Hid → Hearth → Hearth) : (s.mapHearths f).dg = s.dg := by simp only [State.mapHearths]
@[simp] theorem State.mapHearths_pw (s : State) (f : Hid → Hearth → Hearth) : (s.mapHearths f).pw = s.pw := by simp only [State.mapHearths]
@[simp] theorem State.mapHearths_sec (s : State) (f : Hid → Hearth → Hearth) : (s.mapHearths f).sec = s.sec := by simp only [State.mapHearths]
@[simp] theorem State.mapHearths_pat (s : State) (f : Hid → Hearth → Hearth) : (s.mapHearths f).pat = s.pat := by simp only [State.mapHearths]
@[simp] theorem State.mapHearths_host (s : State) (f : Hid → Hearth → Hearth) : (s.mapHearths f).host = s.host := by simp only [State.mapHearths]
@[simp] theorem State.mapHearths_hrst (s : State) (f : Hid → Hearth → Hearth) : (s.mapHearths f).hrst = s.hrst := by simp only [State.mapHearths]
@[simp] theorem State.mapHearths_lc (s : State) (f : Hid → Hearth → Hearth) : (s.mapHearths f).lc = s.lc := by simp only [State.mapHearths]
@[simp] theorem State.mapHearths_bank (s : State) (f : Hid → Hearth → Hearth) : (s.mapHearths f).bank = s.bank := by simp only [State.mapHearths]
@[simp] theorem State.mapHearths_blksel (s : State) (f : Hid → Hearth → Hearth) : (s.mapHearths f).blksel = s.blksel := by simp only [State.mapHearths]
@[simp] theorem State.mapHearths_dset (s : State) (f : Hid → Hearth → Hearth) : (s.mapHearths f).dset = s.dset := by simp only [State.mapHearths]
@[simp] theorem State.mapHearths_mtab (s : State) (f : Hid → Hearth → Hearth) : (s.mapHearths f).mtab = s.mtab := by simp only [State.mapHearths]
@[simp] theorem State.mapHearths_now (s : State) (f : Hid → Hearth → Hearth) : (s.mapHearths f).now = s.now := by simp only [State.mapHearths]
@[simp] theorem State.mapHearths_td (s : State) (f : Hid → Hearth → Hearth) : (s.mapHearths f).td = s.td := by simp only [State.mapHearths]
@[simp] theorem State.mapHearths_nextId (s : State) (f : Hid → Hearth → Hearth) : (s.mapHearths f).nextId = s.nextId := by simp only [State.mapHearths]
@[simp] theorem State.mapHearths_free (s : State) (f : Hid → Hearth → Hearth) : (s.mapHearths f).free = s.free := by simp only [State.mapHearths]
@[simp] theorem State.mapHearths_pending (s : State) (f : Hid → Hearth → Hearth) : (s.mapHearths f).pending = s.pending := by simp only [State.mapHearths]
@[simp] theorem State.mapHearths_reg (s : State) (f : Hid → Hearth → Hearth) (c : Nat) : (s.mapHearths f).reg c = s.reg c := by simp only [State.reg, State.mapHearths_regs]
@[simp] theorem State.mapHearths_byte (s : State) (f : Hid → Hearth → Hearth) (b : Nat) : (s.mapHearths f).byte b = s.byte b := by simp only [State.byte, State.mapHearths_mem]

/-! ## Control registers of a hearth -/

@[simp] theorem Hearth.wr_run (h : Hearth) (k : Nat) (v : Word) : (h.wr k v).run = h.run := rfl
@[simp] theorem Hearth.wr_mode (h : Hearth) (k : Nat) (v : Word) : (h.wr k v).mode = h.mode := rfl
@[simp] theorem Hearth.wr_ml (h : Hearth) (k : Nat) (v : Word) : (h.wr k v).ml = h.ml := rfl
@[simp] theorem Hearth.wr_sov (h : Hearth) (k : Nat) (v : Word) : (h.wr k v).sov = h.sov := rfl
@[simp] theorem Hearth.wr_dov (h : Hearth) (k : Nat) (v : Word) : (h.wr k v).dov = h.dov := rfl
@[simp] theorem Hearth.wr_dvz (h : Hearth) (k : Nat) (v : Word) : (h.wr k v).dvz = h.dvz := rfl
@[simp] theorem Hearth.wr_fap (h : Hearth) (k : Nat) (v : Word) : (h.wr k v).fap = h.fap := rfl
@[simp] theorem Hearth.wr_fapCause (h : Hearth) (k : Nat) (v : Word) : (h.wr k v).fapCause = h.fapCause := rfl
@[simp] theorem Hearth.wr_pc (h : Hearth) (k : Nat) (v : Word) : (h.wr k v).pc = h.pc := rfl
@[simp] theorem Hearth.wr_g (h : Hearth) (k : Nat) (v : Word) : (h.wr k v).g = h.g := rfl
@[simp] theorem Hearth.wr_sp (h : Hearth) (k : Nat) (v : Word) : (h.wr k v).sp = h.sp := rfl
@[simp] theorem Hearth.wr_p (h : Hearth) (k : Nat) (v : Word) : (h.wr k v).p = h.p := rfl
@[simp] theorem Hearth.wr_op (h : Hearth) (k : Nat) (v : Word) : (h.wr k v).op = h.op := rfl
@[simp] theorem Hearth.wr_rs (h : Hearth) (k : Nat) (v : Word) : (h.wr k v).rs = h.rs := rfl
@[simp] theorem Hearth.wr_acc (h : Hearth) (k : Nat) (v : Word) : (h.wr k v).acc = h.acc := rfl
@[simp] theorem Hearth.wr_flights (h : Hearth) (k : Nat) (v : Word) : (h.wr k v).flights = h.flights := rfl
@[simp] theorem Hearth.wr_sb (h : Hearth) (k : Nat) (v : Word) : (h.wr k v).sb = h.sb := rfl
@[simp] theorem Hearth.wr_sbNew (h : Hearth) (k : Nat) (v : Word) : (h.wr k v).sbNew = h.sbNew := rfl
@[simp] theorem Hearth.wr_accNew (h : Hearth) (k : Nat) (v : Word) : (h.wr k v).accNew = h.accNew := rfl
@[simp] theorem Hearth.wr_far (h : Hearth) (k : Nat) (v : Word) : (h.wr k v).far = h.far := rfl
@[simp] theorem Hearth.wr_mbx (h : Hearth) (k : Nat) (v : Word) : (h.wr k v).mbx = h.mbx := rfl
@[simp] theorem Hearth.wr_ic (h : Hearth) (k : Nat) (v : Word) : (h.wr k v).ic = h.ic := rfl
@[simp] theorem Hearth.wr_clk (h : Hearth) (k : Nat) (v : Word) : (h.wr k v).clk = h.clk := rfl
@[simp] theorem Hearth.wr_cych (h : Hearth) (k : Nat) (v : Word) : (h.wr k v).cych = h.cych := rfl
@[simp] theorem Hearth.wr_stallc (h : Hearth) (k : Nat) (v : Word) : (h.wr k v).stallc = h.stallc := rfl
@[simp] theorem Hearth.wr_waitc (h : Hearth) (k : Nat) (v : Word) : (h.wr k v).waitc = h.waitc := rfl
@[simp] theorem Hearth.wr_pbrTgt (h : Hearth) (k : Nat) (v : Word) : (h.wr k v).pbrTgt = h.pbrTgt := rfl
@[simp] theorem Hearth.wr_pbrRem (h : Hearth) (k : Nat) (v : Word) : (h.wr k v).pbrRem = h.pbrRem := rfl
@[simp] theorem Hearth.wr_pbrV (h : Hearth) (k : Nat) (v : Word) : (h.wr k v).pbrV = h.pbrV := rfl
@[simp] theorem Hearth.wr_pbrCall (h : Hearth) (k : Nat) (v : Word) : (h.wr k v).pbrCall = h.pbrCall := rfl
@[simp] theorem Hearth.wr_lps (h : Hearth) (k : Nat) (v : Word) : (h.wr k v).lps = h.lps := rfl
@[simp] theorem Hearth.wr_lpe (h : Hearth) (k : Nat) (v : Word) : (h.wr k v).lpe = h.lpe := rfl
@[simp] theorem Hearth.wr_lpc (h : Hearth) (k : Nat) (v : Word) : (h.wr k v).lpc = h.lpc := rfl
@[simp] theorem Hearth.wr_lpa (h : Hearth) (k : Nat) (v : Word) : (h.wr k v).lpa = h.lpa := rfl
@[simp] theorem Hearth.wr_repc (h : Hearth) (k : Nat) (v : Word) : (h.wr k v).repc = h.repc := rfl
@[simp] theorem Hearth.wr_rep (h : Hearth) (k : Nat) (v : Word) : (h.wr k v).rep = h.rep := rfl
@[simp] theorem Hearth.wr_wait (h : Hearth) (k : Nat) (v : Word) : (h.wr k v).wait = h.wait := rfl
@[simp] theorem Hearth.wr_twHold (h : Hearth) (k : Nat) (v : Word) : (h.wr k v).twHold = h.twHold := rfl
@[simp] theorem Hearth.wr_entry (h : Hearth) (k : Nat) (v : Word) : (h.wr k v).entry = h.entry := rfl
@[simp] theorem Hearth.wr_crown (h : Hearth) (k : Nat) (v : Word) : (h.wr k v).crown = h.crown := rfl
@[simp] theorem Hearth.wr_loads (h : Hearth) (k : Nat) (v : Word) : (h.wr k v).loads = h.loads := rfl
@[simp] theorem Hearth.wr_btb (h : Hearth) (k : Nat) (v : Word) : (h.wr k v).btb = h.btb := rfl
@[simp] theorem Hearth.wr_btbOut (h : Hearth) (k : Nat) (v : Word) : (h.wr k v).btbOut = h.btbOut := rfl
@[simp] theorem Hearth.wr_pbrKeep (h : Hearth) (k : Nat) (v : Word) : (h.wr k v).pbrKeep = h.pbrKeep := rfl
@[simp] theorem Hearth.wr_mlDec (h : Hearth) (k : Nat) (v : Word) : (h.wr k v).mlDec = h.mlDec := rfl
@[simp] theorem Hearth.wr_gmlDec (h : Hearth) (k : Nat) (v : Word) : (h.wr k v).gmlDec = h.gmlDec := rfl
@[simp] theorem Hearth.wr_mlHeld (h : Hearth) (k : Nat) (v : Word) : (h.wr k v).mlHeld = h.mlHeld := rfl
@[simp] theorem Hearth.wr_icpend (h : Hearth) (k : Nat) (v : Word) : (h.wr k v).icpend = h.icpend := rfl
@[simp] theorem Hearth.wr_nmi30 (h : Hearth) (k : Nat) (v : Word) : (h.wr k v).nmi30 = h.nmi30 := rfl
@[simp] theorem Hearth.wr_nmi31 (h : Hearth) (k : Nat) (v : Word) : (h.wr k v).nmi31 = h.nmi31 := rfl
@[simp] theorem Hearth.wr_wfp (h : Hearth) (k : Nat) (v : Word) : (h.wr k v).wfp = h.wfp := rfl
@[simp] theorem Hearth.wr_wfg (h : Hearth) (k : Nat) (v : Word) : (h.wr k v).wfg = h.wfg := rfl
@[simp] theorem Hearth.wr_gsh (h : Hearth) (k : Nat) (v : Word) : (h.wr k v).gsh = h.gsh := rfl
@[simp] theorem Hearth.wr_line (h : Hearth) (k : Nat) (v : Word) : (h.wr k v).line = h.line := rfl
@[simp] theorem Hearth.wr_lv (h : Hearth) (k : Nat) (v : Word) : (h.wr k v).lv = h.lv := rfl
@[simp] theorem Hearth.wr_armed (h : Hearth) (k : Nat) (v : Word) : (h.wr k v).armed = h.armed := rfl
@[simp] theorem Hearth.wr_doorbell (h : Hearth) (k : Nat) (v : Word) : (h.wr k v).doorbell = h.doorbell := rfl
@[simp] theorem Hearth.wr_pstat (h : Hearth) (k : Nat) (v : Word) : (h.wr k v).pstat = h.pstat := rfl
@[simp] theorem Hearth.wr_report (h : Hearth) (k : Nat) (v : Word) : (h.wr k v).report = h.report := rfl
@[simp] theorem Hearth.wr_cmtPend (h : Hearth) (k : Nat) (v : Word) : (h.wr k v).cmtPend = h.cmtPend := rfl
@[simp] theorem Hearth.wr_cmtEdge (h : Hearth) (k : Nat) (v : Word) : (h.wr k v).cmtEdge = h.cmtEdge := rfl
@[simp] theorem Hearth.wr_ful (h : Hearth) (k : Nat) (v : Word) : (h.wr k v).ful = h.ful := rfl
@[simp] theorem Hearth.wr_fulPend (h : Hearth) (k : Nat) (v : Word) : (h.wr k v).fulPend = h.fulPend := rfl
@[simp] theorem Hearth.wr_fulAbort (h : Hearth) (k : Nat) (v : Word) : (h.wr k v).fulAbort = h.fulAbort := rfl
@[simp] theorem Hearth.wr_fnsLate (h : Hearth) (k : Nat) (v : Word) : (h.wr k v).fnsLate = h.fnsLate := rfl
@[simp] theorem Hearth.wr_portW (h : Hearth) (k : Nat) (v : Word) : (h.wr k v).portW = h.portW := rfl
@[simp] theorem Hearth.wr_redN (h : Hearth) (k : Nat) (v : Word) : (h.wr k v).redN = h.redN := rfl
@[simp] theorem Hearth.wr_redOld (h : Hearth) (k : Nat) (v : Word) : (h.wr k v).redOld = h.redOld := rfl
@[simp] theorem Hearth.wr_arr0 (h : Hearth) (k : Nat) (v : Word) : (h.wr k v).arr0 = h.arr0 := rfl
@[simp] theorem Hearth.wr_arrLost (h : Hearth) (k : Nat) (v : Word) : (h.wr k v).arrLost = h.arrLost := rfl
@[simp] theorem Hearth.wr_frinGot (h : Hearth) (k : Nat) (v : Word) : (h.wr k v).frinGot = h.frinGot := rfl
@[simp] theorem Hearth.wr_resume (h : Hearth) (k : Nat) (v : Word) : (h.wr k v).resume = h.resume := rfl
@[simp] theorem Hearth.wr_cr (h : Hearth) (k : Nat) (v : Word) : (h.wr k v).cr = smSet crDefault h.cr k v := rfl

end Sys2Proof.Machine
end

