-- ==== Sys2Proof/Laws/Memory.lean ====
section
/-!
SUPPORT. The laws of the sparse maps and of the memory: every operation keeps the canonical form, a read after a write
gives what was written, and a write leaves every other byte alone.
-/
namespace Sys2Proof.Machine
open Sys2Proof

/-! ## Sparse maps -/

theorem smWfFrom_mono {β : Type} [DecidableEq β] (d : Nat → β) {lo lo' : Nat} {m : List (Nat × β)} (h : lo' ≤ lo)
    (w : smWfFrom d lo m = true) : smWfFrom d lo' m = true := by
  cases m with
  | nil => rfl
  | cons c m =>
    simp only [smWfFrom, Bool.and_eq_true, decide_eq_true_eq] at w ⊢
    exact ⟨⟨by omega, w.1.2⟩, w.2⟩

/-- Below its least key a canonical map reads its default. -/
theorem smGet_below {β : Type} [DecidableEq β] (d : Nat → β) {lo k : Nat} {m : List (Nat × β)}
    (w : smWfFrom d lo m = true) (h : k < lo) : smGet d m k = d k := by
  cases m with
  | nil => rfl
  | cons c m =>
    simp only [smWfFrom, Bool.and_eq_true, decide_eq_true_eq] at w
    have h1 : k ≠ c.1 := by omega
    have h2 : k < c.1 := by omega
    simp [smGet, h1, h2]

theorem smSet_wfFrom {β : Type} [DecidableEq β] (d : Nat → β) (k : Nat) (v : β) :
    ∀ (m : List (Nat × β)) (lo : Nat), smWfFrom d lo m = true → smWfFrom d (min lo k) (smSet d m k v) = true := by
  intro m
  induction m with
  | nil =>
    intro lo _
    simp only [smSet]
    split
    · rfl
    · rename_i h
      simp [smWfFrom, h]
  | cons c m ih =>
    intro lo w
    obtain ⟨a, x⟩ := c
    simp only [smWfFrom, Bool.and_eq_true, decide_eq_true_eq] at w
    simp only [smSet]
    split
    · rename_i hk
      split
      · simp only [smWfFrom, Bool.and_eq_true, decide_eq_true_eq]
        exact ⟨⟨by omega, w.1.2⟩, w.2⟩
      · rename_i hv
        simp only [smWfFrom, Bool.and_eq_true, decide_eq_true_eq]
        exact ⟨⟨by omega, hv⟩, ⟨by omega, w.1.2⟩, w.2⟩
    · split
      · rename_i hk
        split
        · exact smWfFrom_mono d (by omega) w.2
        · rename_i hv
          simp only [smWfFrom, Bool.and_eq_true, decide_eq_true_eq]
          exact ⟨⟨by omega, hv⟩, smWfFrom_mono d (by omega) w.2⟩
      · simp only [smWfFrom, Bool.and_eq_true, decide_eq_true_eq]
        exact ⟨⟨by omega, w.1.2⟩, smWfFrom_mono d (by omega) (ih (a + 1) w.2)⟩

/-- A write keeps the canonical form. -/
theorem smSet_wf {β : Type} [DecidableEq β] (d : Nat → β) {m : List (Nat × β)} (k : Nat) (v : β)
    (w : smWf d m = true) : smWf d (smSet d m k v) = true := by
  have := smSet_wfFrom d k v m 0 w
  simpa [smWf] using this

theorem smGet_smSet_from {β : Type} [DecidableEq β] (d : Nat → β) (k : Nat) (v : β) (j : Nat) :
    ∀ (m : List (Nat × β)) (lo : Nat), smWfFrom d lo m = true → smGet d (smSet d m k v) j = if j = k then v else smGet d m j := by
  intro m
  induction m with
  | nil =>
    intro lo _
    simp only [smSet]
    split <;> rename_i h <;> by_cases hj : j = k <;> simp [smGet, hj, h]
  | cons c m ih =>
    intro lo w
    obtain ⟨a, x⟩ := c
    simp only [smWfFrom, Bool.and_eq_true, decide_eq_true_eq] at w
    have hd : ∀ i, i < a + 1 → smGet d m i = d i := fun i hi => smGet_below d w.2 hi
    simp only [smSet]
    split
    · rename_i hk
      split
      · rename_i hv
        by_cases hj : j = k
        · subst hj
          have : ¬ j = a := by omega
          simp [smGet, this, hk, hv]
        · simp [hj]
      · by_cases hj : j = k
        · simp [smGet, hj]
        · by_cases hj2 : j < k
          · have h1 : ¬ j = a := by omega
            have h2 : j < a := by omega
            simp [smGet, hj, hj2, h1, h2]
          · simp [smGet, hj, hj2]
    · split
      · rename_i hk
        subst hk
        split
        · rename_i hv
          by_cases hj : j = k
          · subst hj; simp [hd, hv]
          · by_cases hj2 : j < k
            · rw [hd j (by omega)]; simp [smGet, hj, hj2]
            · simp [smGet, hj, hj2]
        · by_cases hj : j = k
          · simp [smGet, hj]
          · simp [smGet, hj]
      · have ihm := ih (a + 1) w.2
        simp only [smGet, ihm]
        by_cases h1 : j = a
        · have : ¬ a = k := by omega
          simp [h1, this]
        · by_cases h2 : j < a
          · have : ¬ j = k := by omega
            simp [h1, h2, this]
          · simp [h1, h2]

/-- A read after a write. -/
theorem smGet_smSet {β : Type} [DecidableEq β] (d : Nat → β) {m : List (Nat × β)} (k : Nat) (v : β) (j : Nat)
    (w : smWf d m = true) : smGet d (smSet d m k v) j = if j = k then v else smGet d m j :=
  smGet_smSet_from d k v j m 0 w

/-- Leaving out entries keeps the canonical form. -/
theorem smWfFrom_filter {β : Type} [DecidableEq β] (d : Nat → β) (p : Nat × β → Bool) :
    ∀ (m : List (Nat × β)) (lo : Nat), smWfFrom d lo m = true → smWfFrom d lo (m.filter p) = true := by
  intro m
  induction m with
  | nil => intro _ _; rfl
  | cons c m ih =>
    intro lo w
    simp only [smWfFrom, Bool.and_eq_true, decide_eq_true_eq] at w
    simp only [List.filter]
    split
    · simp only [smWfFrom, Bool.and_eq_true, decide_eq_true_eq]
      exact ⟨w.1, ih _ w.2⟩
    · exact smWfFrom_mono d (by omega) (ih _ w.2)

theorem smWf_filter {β : Type} [DecidableEq β] (d : Nat → β) (p : Nat × β → Bool) {m : List (Nat × β)}
    (w : smWf d m = true) : smWf d (m.filter p) = true := smWfFrom_filter d p m 0 w

/-! ## Bytes of the memory -/

theorem State.byte_setByte (s : State) (k j : Nat) (v : Byte) (w : Memory.wf s.mem = true) :
    (s.setByte k v).byte j = if j = k then v else s.byte j :=
  smGet_smSet memDefault k v j w

theorem State.setByte_wf (s : State) (k : Nat) (v : Byte) (w : Memory.wf s.mem = true) :
    Memory.wf (s.setByte k v).mem = true := smSet_wf memDefault k v w

theorem State.setBytes_wf (l : List Byte) : ∀ (s : State) (k : Nat), Memory.wf s.mem = true → Memory.wf (s.setBytes k l).mem = true := by
  induction l with
  | nil => intro s k w; exact w
  | cons b l ih => intro s k w; exact ih _ _ (s.setByte_wf k b w)

/-- What a write of bytes leaves at every key. -/
theorem State.byte_setBytes (l : List Byte) : ∀ (s : State) (k j : Nat), Memory.wf s.mem = true →
    (s.setBytes k l).byte j = if k ≤ j ∧ j < k + l.length then l.getD (j - k) 0 else s.byte j := by
  induction l with
  | nil => intro s k j _; simp [State.setBytes]
  | cons b l ih =>
    intro s k j w
    rw [State.setBytes, ih _ _ _ (s.setByte_wf k b w), s.byte_setByte k j b w]
    by_cases h1 : j = k
    · subst h1; simp
    · by_cases h2 : k + 1 ≤ j ∧ j < k + 1 + l.length
      · have h3 : k ≤ j ∧ j < k + (b :: l).length := by simp; omega
        have h4 : j - k = (j - (k + 1)) + 1 := by omega
        rw [if_pos h2, if_pos h3, h4]
        simp
      · have h3 : ¬ (k ≤ j ∧ j < k + (b :: l).length) := by simp; omega
        simp only [h1, h2, h3, if_false]

theorem State.setBytes_eq (l : List Byte) : ∀ (s : State) (k : Nat), s.setBytes k l = { s with mem := (s.setBytes k l).mem } := by
  induction l with
  | nil => intro s k; rfl
  | cons b l ih => intro s k; rw [State.setBytes, ih]; rfl

theorem State.fill_wf (v : Byte) (n : Nat) : ∀ (s : State) (k : Nat), Memory.wf s.mem = true → Memory.wf (s.fill k v n).mem = true := by
  induction n with
  | zero => intro s k w; exact w
  | succ n ih => intro s k w; exact ih _ _ (s.setByte_wf k v w)

theorem State.clearRange_wf (s : State) (lo hi : Nat) (w : Memory.wf s.mem = true) : Memory.wf (s.clearRange lo hi).mem = true :=
  smWf_filter memDefault _ w

theorem State.setReg_wf (s : State) (a : Nat) (v : Word) (w : smWf regDefault s.regs = true) :
    smWf regDefault (s.setReg a v).regs = true := smSet_wf regDefault a v w

/-- A read of a register after a write. -/
theorem State.reg_setReg (s : State) (a c : Nat) (v : Word) (w : smWf regDefault s.regs = true) :
    (s.setReg a v).reg c = if c = a then v else s.reg c := smGet_smSet regDefault a v c w

/-! ## Masked writes -/

/-- What a masked write of a word leaves at every key, and that it changes memory alone. -/
theorem State.wrMask_spec (s : State) (k : Nat) (data : Word) (mask : BitVec 4) (w : Memory.wf s.mem = true) :
    Memory.wf (s.wrMask k data mask).mem = true ∧ s.wrMask k data mask = { s with mem := (s.wrMask k data mask).mem }
    ∧ ∀ j, (s.wrMask k data mask).byte j =
        if k ≤ j ∧ j < k + 4 ∧ mask.getLsbD (j - k) = true then BitVec.ofNat 8 (lane data (j - k) 8) else s.byte j := by
  have step : ∀ (i : Nat) (t : State), Memory.wf t.mem = true →
      Memory.wf (if mask.getLsbD i then t.setByte (k + i) (BitVec.ofNat 8 (lane data i 8)) else t).mem = true
      ∧ (if mask.getLsbD i then t.setByte (k + i) (BitVec.ofNat 8 (lane data i 8)) else t)
          = { t with mem := (if mask.getLsbD i then t.setByte (k + i) (BitVec.ofNat 8 (lane data i 8)) else t).mem }
      ∧ ∀ j, (if mask.getLsbD i then t.setByte (k + i) (BitVec.ofNat 8 (lane data i 8)) else t).byte j =
        if j = k + i ∧ mask.getLsbD i = true then BitVec.ofNat 8 (lane data i 8) else t.byte j := by
    intro i t wt
    split
    · exact ⟨t.setByte_wf _ _ wt, rfl, fun j => by simp [t.byte_setByte _ _ _ wt, *]⟩
    · exact ⟨wt, rfl, fun j => by simp [*]⟩
  have e : List.range 4 = [0, 1, 2, 3] := rfl
  simp only [State.wrMask, e, List.foldl_cons, List.foldl_nil]
  obtain ⟨w0, e0, b0⟩ := step 0 s w
  obtain ⟨w1, e1, b1⟩ := step 1 _ w0
  obtain ⟨w2, e2, b2⟩ := step 2 _ w1
  obtain ⟨w3, e3, b3⟩ := step 3 _ w2
  refine ⟨w3, ?_, fun j => ?_⟩
  · rw [e3, e2, e1, e0]
  · rw [b3, b2, b1, b0]
    by_cases h3 : j = k + 3
    · subst h3; simp
    by_cases h2 : j = k + 2
    · subst h2; simp
    by_cases h1 : j = k + 1
    · subst h1; simp
    by_cases h0 : j = k + 0
    · subst h0; simp
    have : ¬ (k ≤ j ∧ j < k + 4 ∧ mask.getLsbD (j - k) = true) := by omega
    simp [h1, h2, h3, this]; omega

end Sys2Proof.Machine
end

