-- ==== Sys2Proof/Laws/Hearth.lean ====
section
/-!
SUPPORT. What the shared operations of a hearth can do, said once: the writes of control registers and ports, the drain
of the near store buffer, the landing of operations, the end of an issue cycle, and the cycles without an issue.
-/
namespace Sys2Proof.Machine
open Sys2Proof

/-- A hearth without what a write through the near store buffer reaches: ML, the sticky bits, the banked stack
pointers, LPC and REPC, the stall counters, pending lines, doorbells, the notes of the felt's ports and plain control registers. -/
def Hearth.core (x : Hearth) : Hearth :=
  { x with ml := 0, sov := false, dov := false, dvz := false, lpc := 0, repc := 0, stallc := 0, waitc := 0, sp := Vector.replicate 4 0
           cr := [], icpend := 0, doorbell := 0, fnsLate := [], portW := [] }

/-- `y` is `x` but for what a write through the near store buffer reaches; the high half of REPC stays. -/
def Hearth.Drained (x y : Hearth) : Prop := y.core = x.core ∧ fld y.repc 16 16 = fld x.repc 16 16

theorem Hearth.Drained.refl (x : Hearth) : x.Drained x := ⟨rfl, rfl⟩

theorem Hearth.Drained.trans {x y z : Hearth} (a : x.Drained y) (b : y.Drained z) : x.Drained z :=
  ⟨b.1.trans a.1, b.2.trans a.2⟩

theorem Hearth.Drained.ite {x a b : Hearth} {c : Prop} [Decidable c] (p : x.Drained a) (q : x.Drained b) :
    x.Drained (if c then a else b) := by
  by_cases h : c <;> simpa [h]

theorem Hearth.Drained.wr (x : Hearth) (o : Nat) (v : Word) : x.Drained (x.wr o v) :=
  ⟨rfl, rfl⟩

theorem fld_blend_low (a b : Word) : fld (blend a b 0xFFFF) 16 16 = fld a 16 16 := by
  have h : (blend a b 0xFFFF).extractLsb' 16 16 = a.extractLsb' 16 16 := by
    apply BitVec.eq_of_getLsbD_eq
    intro i hi
    have h1 : ∀ j : Fin 16, (0xFFFF : Word).getLsbD (16 + j.val) = false := by decide
    have h2 : ∀ j : Fin 16, (~~~(0xFFFF : Word)).getLsbD (16 + j.val) = true := by decide
    have k1 := h1 ⟨i, hi⟩
    have k2 := h2 ⟨i, hi⟩
    simp only [BitVec.getLsbD_extractLsb', blend, BitVec.getLsbD_or, BitVec.getLsbD_and, k1, k2]
    simp
  have e : ∀ w : Word, fld w 16 16 = (w.extractLsb' 16 16).toNat := by
    intro w; simp [fld, BitVec.extractLsb'_toNat, Nat.shiftRight_eq_div_pow]
  rw [e, e, h]

/-- A write of a control register changes its hearth alone. -/
theorem State.csrWrite_spec (s : State) (h : Hid) (o : Nat) (v : Word) (m : Mode) :
    ∃ y, s.csrWrite h o v m = s.setHearth h y ∧ (s.hearth h).Drained y := by
  refine ⟨_, rfl, ?_⟩
  generalize s.hearth h = x
  refine .ite ⟨rfl, rfl⟩ ?_
  refine .ite ⟨rfl, rfl⟩ ?_
  refine .ite ⟨rfl, fld_blend_low _ _⟩ ?_
  iterate 9 refine .ite ⟨rfl, rfl⟩ ?_
  refine .ite ?_ ?_
  · exact .ite ((Hearth.Drained.ite (.refl _) (.wr _ _ _)).trans (.wr _ _ _)) (.ite (.refl _) (.wr _ _ _))
  refine .ite (.ite ((Hearth.Drained.wr _ _ _).trans (.wr _ _ _)) (.wr _ _ _)) ?_
  iterate 3 refine .ite ⟨rfl, rfl⟩ ?_
  exact .wr _ _ _

/-- A write to the port file changes doorbells of its hearth alone. -/
theorem State.portWrite_spec (s : State) (h : Hid) (o : Nat) (v : Word) (m : Mode) :
    ∃ y, s.portWrite h o v m = s.setHearth h y ∧ (s.hearth h).Drained y := by
  unfold State.portWrite
  split
  · exact ⟨_, rfl, ⟨rfl, rfl⟩⟩
  split
  · exact ⟨_, rfl, ⟨rfl, rfl⟩⟩
  · exact ⟨s.hearth h, by simp, .refl _⟩

theorem State.wrMask_eq (s : State) (k : Nat) (data : Word) (mask : BitVec 4) :
    s.wrMask k data mask = { s with mem := (s.wrMask k data mask).mem } := by
  have step : ∀ (t : State) (i : Nat), (if mask.getLsbD i then t.setByte (k + i) (BitVec.ofNat 8 (lane data i 8)) else t)
      = { t with mem := (if mask.getLsbD i then t.setByte (k + i) (BitVec.ofNat 8 (lane data i 8)) else t).mem } := by
    intro t i; split <;> rfl
  have e : List.range 4 = [0, 1, 2, 3] := rfl
  simp only [State.wrMask, e, List.foldl_cons, List.foldl_nil]
  rw [step, step, step, step]

/-- The note of a write changes its hearth alone: the notes of its ports and the collision registers. -/
theorem State.portNote_spec (s : State) (h : Hid) (b : Bool) (o : Nat) (m : BitVec 4) :
    ∃ y, s.portNote h b o m = s.setHearth h y ∧ (s.hearth h).Drained y := by
  unfold State.portNote
  extract_lets ws
  rw [State.modHearth_eq]
  refine ⟨_, rfl, ?_⟩
  generalize s.hearth h = x
  exact .ite ⟨rfl, rfl⟩ ⟨rfl, rfl⟩

/-- A write on port A changes memory, and of its hearth the notes of its ports and the collision registers (08 R246). -/
theorem State.portA_spec (s : State) (h : Hid) (o : Nat) (v : Word) (m : BitVec 4) :
    ∃ y mem, s.portA h o v m = { s.setHearth h y with mem := mem } ∧ (s.hearth h).Drained y := by
  unfold State.portA
  extract_lets late
  obtain ⟨y, e, d⟩ := State.portNote_spec (s.wrMask (feltKey h o) v (m &&& ~~~late)) h false o m
  refine ⟨y, (s.wrMask (feltKey h o) v (m &&& ~~~late)).mem, ?_, ?_⟩
  · rw [e]; rw [State.wrMask_eq]; rfl
  · rw [State.wrMask_eq] at d; exact d

/-- A drain of the buffer changes its hearth and memory alone, and takes its oldest entry. -/
theorem State.drain_spec (s : State) (h : Hid) :
    ∃ y m, s.drain h = { s.setHearth h y with mem := m } ∧
      ({ s.hearth h with sb := (s.hearth h).sb.tail } : Hearth).Drained y := by
  unfold State.drain
  split
  · rename_i e
    refine ⟨s.hearth h, s.mem, by simp, ?_⟩
    have : ({ s.hearth h with sb := (s.hearth h).sb.tail } : Hearth) = s.hearth h := by
      rw [show (s.hearth h).sb.tail = (s.hearth h).sb by simp [e]]
    rw [this]; exact .refl _
  · rename_i e r he
    rw [show (s.hearth h).sb.tail = r by simp [he]]
    unfold State.drainEntry
    split
    · split
      · obtain ⟨y, m, e1, d1⟩ := State.portA_spec (s.modHearth h (fun x => { x with sb := r })) h (feltOff e.key) e.data e.mask
        exact ⟨y, m, by rw [e1]; simp [State.setHearth], by simpa using d1⟩
      · exact ⟨{ s.hearth h with sb := r }, ((s.modHearth h (fun x => { x with sb := r })).wrMask e.key e.data e.mask).mem,
          State.wrMask_eq _ _ _ _, .refl _⟩
    split
    · obtain ⟨y, e1, d1⟩ := State.portWrite_spec (s.modHearth h (fun x => { x with sb := r })) h (e.addr - 0xF000) e.data e.mode
      exact ⟨y, s.mem, by rw [e1]; simp; rfl, by simpa using d1⟩
    · obtain ⟨y, e1, d1⟩ := State.csrWrite_spec (s.modHearth h (fun x => { x with sb := r })) h (e.addr - 0xF800) e.data e.mode
      exact ⟨y, s.mem, by rw [e1]; simp; rfl, by simpa using d1⟩

theorem State.drain_nil (s : State) (h : Hid) (e : (s.hearth h).sb = []) : s.drain h = s := by
  unfold State.drain; rw [e]

theorem State.drainN_nil (n : Nat) : ∀ (s : State) (h : Hid), (s.hearth h).sb = [] → s.drainN h n = s := by
  induction n with
  | zero => intro s h _; rfl
  | succ n ih => intro s h e; rw [State.drainN, s.drain_nil h e, ih s h e]

/-- `n` drains change their hearth and memory alone. -/
theorem State.drainN_spec (n : Nat) : ∀ (s : State) (h : Hid), ∃ y m, s.drainN h n = { s.setHearth h y with mem := m } ∧
    ({ s.hearth h with sb := (s.hearth h).sb.drop n } : Hearth).Drained y := by
  induction n with
  | zero => intro s h; exact ⟨s.hearth h, s.mem, by simp [State.drainN], .refl _⟩
  | succ n ih =>
    intro s h
    obtain ⟨y, m, e, d⟩ := s.drain_spec h
    obtain ⟨z, m2, e2, d2⟩ := ih (s.drain h) h
    refine ⟨z, m2, ?_, ?_⟩
    · rw [State.drainN, e2, e]
      simp [State.setHearth]
    · have hy : (s.drain h).hearth h = y := by rw [e]; exact State.hearth_setHearth_self s h y
      rw [hy] at d2
      have hs : y.sb = (s.hearth h).sb.tail := congrArg Hearth.sb d.1
      have d3 : ({ s.hearth h with sb := (s.hearth h).sb.drop (n + 1) } : Hearth).Drained { y with sb := y.sb.drop n } := by
        refine ⟨?_, d.2⟩
        have q := congrArg (fun c : Hearth => { c with sb := c.sb.drop n }) d.1
        simpa [Hearth.core, List.drop_drop] using q
      exact d3.trans d2

/-! ## Landing -/

/-- A hearth without what landing operations reach: result sockets, ACC and sticky bits. -/
def Hearth.unlanded (x : Hearth) : Hearth :=
  { x with rs := Vector.replicate 15 0, acc := 0, sov := false, dov := false, dvz := false }

/-- An operation that lands changes result sockets, ACC and sticky bits alone. -/
theorem Hearth.land_spec (x : Hearth) (f : Flight) : (x.land f).unlanded = x.unlanded := by
  unfold Hearth.land; split <;> rfl

theorem Hearth.foldl_land_spec (l : List Flight) : ∀ x : Hearth, (l.foldl Hearth.land x).unlanded = x.unlanded := by
  induction l with
  | nil => intro x; rfl
  | cons f l ih => intro x; exact (ih (x.land f)).trans (x.land_spec f)

/-- The end of an issue cycle changes result sockets, ACC, sticky bits, the buffer, the operations in flight and the
cycle counts alone. -/
theorem Hearth.endIssue_spec (x : Hearth) : x.endIssue.unlanded =
    { x with flights := x.flights.filter (fun f => !decide (f.due ≤ x.ic + 1)), accNew := none, sb := x.sb ++ x.sbNew, sbNew := []
             ic := x.ic + 1, clk := x.clk + 1 }.unlanded := by
  have h := Hearth.foldl_land_spec (x.flights.filter (fun f => decide (f.due ≤ x.ic + 1))) x
  unfold Hearth.endIssue Hearth.landDue
  dsimp only
  generalize (x.flights.filter (fun f => decide (f.due ≤ x.ic + 1))).foldl Hearth.land x = z at h ⊢
  have e1 : z.sb = x.sb := show z.unlanded.sb = x.unlanded.sb by rw [h]
  have e2 : z.sbNew = x.sbNew := show z.unlanded.sbNew = x.unlanded.sbNew by rw [h]
  have e3 : z.ic = x.ic := show z.unlanded.ic = x.unlanded.ic by rw [h]
  have e4 : z.clk = x.clk := show z.unlanded.clk = x.unlanded.clk by rw [h]
  have q := congrArg (fun c : Hearth => { c with
    flights := x.flights.filter (fun f => !decide (f.due ≤ x.ic + 1)), accNew := none, sb := x.sb ++ x.sbNew, sbNew := []
    ic := x.ic + 1, clk := x.clk + 1 }) h
  simp only [e1, e2, e3, e4]
  exact q

/-- With nothing due the end of an issue cycle keeps the result sockets and the sticky bits. -/
theorem Hearth.endIssue_idle (x : Hearth) (e : ∀ f ∈ x.flights, x.ic + 1 < f.due) :
    x.endIssue.rs = x.rs ∧ x.endIssue.sov = x.sov ∧ x.endIssue.dov = x.dov ∧ x.endIssue.dvz = x.dvz := by
  have : x.flights.filter (fun f => decide (f.due ≤ x.ic + 1)) = [] := by
    rw [List.filter_eq_nil_iff]
    intro f hf
    have := e f hf
    simp; omega
  unfold Hearth.endIssue Hearth.landDue
  simp [this]

/-- The operation that lands last leaves its result in its socket. -/
theorem Hearth.endIssue_last (x : Hearth) {a b : List Flight} {f : Flight} {k : Fin 15} {w : Word}
    (e : x.flights = a ++ f :: b) (hk : f.kind = .one k w) (hd : f.due ≤ x.ic + 1) (hb : ∀ g ∈ b, x.ic + 1 < g.due) :
    x.endIssue.rs[k] = w ∧ (f.sov = true → x.endIssue.sov = true) := by
  have hn : b.filter (fun g => decide (g.due ≤ x.ic + 1)) = [] := by
    rw [List.filter_eq_nil_iff]
    intro g hg
    have := hb g hg
    simp; omega
  have hf : x.flights.filter (fun g => decide (g.due ≤ x.ic + 1)) = a.filter (fun g => decide (g.due ≤ x.ic + 1)) ++ [f] := by
    rw [e, List.filter_append, List.filter_cons_of_pos (by simpa using hd), hn]
  unfold Hearth.endIssue Hearth.landDue
  dsimp only
  rw [hf, List.foldl_append, List.foldl_cons, List.foldl_nil]
  generalize (a.filter (fun g => decide (g.due ≤ x.ic + 1))).foldl Hearth.land x = z
  simp only [Hearth.land, hk, Hearth.stick]
  refine ⟨by simp, fun hs => by simp [hs]⟩

/-- The end of an issue cycle of a hearth changes that hearth and memory alone. -/
theorem State.endCycle_spec (s : State) (h : Hid) :
    ∃ y m, s.endCycle h = { s.setHearth h y.endIssue with mem := m } ∧ (s.drain h).mem = m ∧
      ({ s.hearth h with sb := (s.hearth h).sb.tail } : Hearth).Drained y := by
  obtain ⟨y, m, e, d⟩ := s.drain_spec h
  refine ⟨y, m, ?_, by rw [e], d⟩
  unfold State.endCycle
  rw [e]
  have : (({ s.setHearth h y with mem := m } : State).hearth h) = y := State.hearth_setHearth_self s h y
  rw [State.modHearth_eq, this]
  simp [State.setHearth]

/-- Without buffered stores the end of an issue cycle changes its hearth alone. -/
theorem State.endCycle_nil (s : State) (h : Hid) (e : (s.hearth h).sb = []) : s.endCycle h = s.setHearth h (s.hearth h).endIssue := by
  unfold State.endCycle; rw [s.drain_nil h e]; simp

theorem State.extraCycles_nil (s : State) (h : Hid) (n : Nat) (e : (s.hearth h).sb = []) :
    s.extraCycles h n = s.setHearth h { s.hearth h with clk := (s.hearth h).clk + n } := by
  unfold State.extraCycles; rw [State.drainN_nil n s h e]; simp

end Sys2Proof.Machine
end

