-- ==== Sys2Proof/WellFormed.lean ====
section
/-!
DEFINITION. Which commands are well formed: fields that a type wider than the spec's holds lie in the spec's range. What a
command does is the machine's to judge.
-/
namespace Sys2Proof

/-- The header fields of a frame fit Table YL-4, and LEN is at most 64. -/
def frameWf (f : Frame) : Bool :=
  decide (f.tc < 4) && decide (f.gen < 4) && decide (f.hops < 256) && decide (f.lseq < 256) && decide (f.tag < 1024)
    && decide (f.hrt < 64) && decide (f.payload.length ≤ 64)

/-- Well-formed commands. -/
def Instr.wf : Instr → Bool
  | .instructionWord .. | .operationResult .. | .add .. | .sub .. | .rsub .. | .addcy .. => true
  | .subbw .. | .adds .. | .subs .. | .addus .. | .subus .. | .and .. => true
  | .or .. | .xor .. | .andn .. | .not .. | .neg .. | .negs .. => true
  | .abs .. | .abss .. | .min .. | .max .. | .minu .. | .maxu .. => true
  | .pass .. | .addB4 .. | .subB4 .. | .addusB4 .. | .subusB4 .. | .addH2 .. => true
  | .subH2 .. | .addsH2 .. | .subsH2 .. | .shl .. | .shr .. | .sar .. => true
  | .rol .. | .ror .. | .shls .. | .sarr .. | .shlH2 .. | .shrH2 .. => true
  | .sarH2 .. | .sextB .. | .sextH .. | .zextB .. | .zextH .. | .clz .. => true
  | .pack .. | .mul .. | .mulu .. | .mulsu .. | .mulH2 .. | .mulqH2 .. => true
  | .mulq .. | .mac .. | .msu .. | .macH2 .. | .msuH2 .. | .macu .. => true
  | .accr .. | .accrH .. | .div .. | .divu .. | .rem .. | .remu .. => true
  | .eq .. | .ne .. | .lt .. | .ltu .. | .le .. | .leu .. => true
  | .gt .. | .gtu .. | .ge .. | .geu .. | .tst .. | .bit .. => true
  | .ld .. | .ldh .. | .ldhu .. | .ldb .. | .ldbu .. | .st .. => true
  | .sth .. | .stb .. | .nearStoreDrain .. | .ldFar .. | .ldhuFar .. | .stFar .. => true
  | .sthFar .. | .addFar .. | .addsH2Far .. | .swapFar .. | .farLoadCompletion .. | .farStoreAck .. => true
  | .farAccessFailure .. | .jmp .. | .jmpr .. | .call .. | .callr .. | .jtab .. => true
  | .loop .. | .brk .. | .rep .. | .repeatedWord .. | .post .. | .fetch .. => true
  | .peek .. | .pstat .. | .ring .. | .dbclr .. | .mbxAnswer .. | .tget .. => true
  | .tarm .. | .tcan .. | .twait .. | .twaitRelease .. | .alarmFire .. | .csrr .. => true
  | .csrw .. | .csrs .. | .csrc .. | .csrx .. | .trap .. | .gate .. => true
  | .ret .. | .gret .. | .halt .. | .debugResume .. | .sleep .. | .fence .. => true
  | .fenceI .. | .commit .. | .epwait .. | .sync .. | .barrierComplete .. | .entry .. => true
  | .interrupt .. | .hearthFault .. | .icset .. | .dgfeed .. | .draughtWarning .. | .draughtExpiry .. => true
  | .draughtReset .. | .fk0 .. | .fk1 .. | .fk2 .. | .fk3 .. | .fk4 .. => true
  | .fk5 .. | .step .. | .red .. | .lrun .. | .fullingCompletion .. | .haloLanding .. => true
  | .reductionComplete .. | .frtoExpiry .. | .tickEdge | .firstTickEdge | .tickEdgeArrival .. | .commitReport .. => true
  | .sliceCopy .. | .epdl | .fdl | .sdl | .sealApply | .mlost => true
  | .timeExchange .. | .fdemWrite .. | .ecmtVector | .damperTick | .firstKey .. | .secondKey .. => true
  | .keyTimeout | .quenchN | .out .. | .rawCode .. | .codeAbsence .. | .phase .. => true
  | .group .. | .groupWindowEnd .. | .dqset .. | .dqclr .. | .drqtx .. | .zeroCrossing .. => true
  | .phaseLost .. | .halfCycleDecision .. | .pwmPeriod .. | .ctHalfCycle .. | .referenceLoss | .referenceReturn => true
  | .lfLoss | .detect .. | .align .. | .lockLost .. | .trainingRetry .. | .ident .. => true
  | .ack .. | .nak .. | .cfm .. | .cred .. | .tsq .. | .tsr1 .. => true
  | .tsr2 .. | .down .. | .resendTimer .. | .linkfail .. | .custodyTimeout .. | .ackResend .. => true
  | .responseResend .. | .linkReconfig | .hubPost .. | .withdrawal .. | .mbxtoExpiry .. | .mbcfgWrite .. => true
  | .mbsgo .. | .mbring .. | .hlockRead .. | .hlockWrite .. | .mblkfree .. | .grant .. => true
  | .promotion .. | .burst .. | .bitSetAlias .. | .bitClearAlias .. | .atomic .. | .masterResetAbort .. => true
  | .islandPowerLoss .. | .sliceChange .. | .remap .. | .swipe .. | .wipeComplete | .go .. => true
  | .abort .. | .descriptorFetch .. | .epwStart .. | .chunkCompletion .. | .descriptorDone .. | .bellowsError .. => true
  | .conversion .. | .cjConversion .. | .ctSample .. | .sampleLatch | .achWrite .. | .rateChange .. => true
  | .startUp | .staging .. | .stagingAbort .. | .stagingDone | .arm .. | .disarm .. => true
  | .reblockCommit .. | .qspiCommand .. | .qspiWindowRead .. | .slcadv .. | .sdbggo .. | .unlockResult => true
  | .tamper .. | .opChange .. | .regulatorReady | .vfail | .cap .. | .rel .. => true
  | .backBias | .sleepRequest .. | .wakefail .. | .aonAlarm | .por | .bor .. => true
  | .bow | .bowRecovery | .vddAfeLow | .vddLnkLow | .pinReset | .swr .. => true
  | .hrst .. | .deviceReset | .ethReceive .. | .ethtxgo .. | .ptpstep .. | .ethmdio .. => true
  | .usbBusReset | .dfuUpload .. | .sessionTimeout | .i2ccmd .. | .i2cTimeout | .uartReceive .. => true
  | .urxd .. | .utxd .. | .gpioEvent .. | .idcode | .samplePreload | .extest => true
  | .jtagDebug | .bypass | .tapReset | .rcRead .. | .latchingRead .. | .registerWrite .. => true
  | .commitCompletion .. | .hubFetch .. | .halfCycleBoundary .. | .quenchNHigh | .pinCauseGone | .bowCauseGone => true
  | .tamperInactive .. | .vddAfeRecovery | .lfReturn | .qspiCommandDone .. | .mdioDone .. | .ethTransmitDone => true
  | .standardRequest .. | .vbusChange .. => true
  | .rd _ f => frameWf f
  | .rdr _ f => frameWf f
  | .wr _ f => frameWf f
  | .wra _ f => frameWf f
  | .atReq _ f => frameWf f
  | .atr _ f => frameWf f
  | .mb _ f => frameWf f
  | .mbr _ f => frameWf f
  | .halo _ f => frameWf f
  | .haloa _ f => frameWf f
  | .stok _ f => frameWf f
  | .etok _ f => frameWf f
  | .eack _ f => frameWf f
  | .esup _ f => frameWf f
  | .eseal _ f => frameWf f
  | .rq _ f => frameWf f
  | .rrst _ f => frameWf f
  | .fail _ f => frameWf f
  | .timeout tag => decide (tag < 1024)
  | .wake n => decide (n < 20)
  | .bulkOut d => decide (d.length ≤ 64)
  | .dfuDownload _ _ d => decide (d.length ≤ 4096)
  | .hello _ d => decide (d.length ≤ 1024)
  | .auth _ d => decide (d.length ≤ 1024)
  | .mread _ d => decide (d.length ≤ 1024)
  | .logread _ d => decide (d.length ≤ 1024)
  | .fread _ d => decide (d.length ≤ 1024)
  | .fwrite _ d => decide (d.length ≤ 1024)
  | .stage _ d => decide (d.length ≤ 1024)
  | .kspReblock _ d => decide (d.length ≤ 1024)
  | .calread _ d => decide (d.length ≤ 1024)
  | .calwrite _ d => decide (d.length ≤ 1024)
  | .lcadv _ d => decide (d.length ≤ 1024)
  | .qclear _ d => decide (d.length ≤ 1024)
  | .i2cCommandDone _ d => decide (d.length ≤ 16)
  | .bulkIn n => decide (n ≤ 64)

end Sys2Proof
end

