-- ==== Sys2Proof/Tests/Slice0.lean ====
section
/-!
SUPPORT. The model's own tests: the commands that are not well formed and the check that refuses each; small steps with values
worked out in the spec; and for the hypotheses of every obligation a concrete state and operands that meet them together.
-/
namespace Sys2Proof.Tests
open Sys2Proof Sys2Proof.Machine
set_option Elab.async false

/-! ## States to test on -/

/-- The invariant as a check. -/
def invB (s : State) : Bool :=
  Memory.wf s.mem && smWf regDefault s.regs && decide (∀ h : Hid, smWf crDefault (s.hearth h).cr = true) && smWf (fun _ => 0) s.lk.gens

theorem inv_of {s : State} (h : invB s = true) : s.Inv := by
  simp only [invB, Bool.and_eq_true, decide_eq_true_eq] at h
  exact ⟨h.1.1.1, h.1.1.2, h.1.2, h.2⟩

/-- Whether a target is free. -/
def openB (s : State) (t : Fin 19) : Bool :=
  decide (s.targetHeld t = false ∧ s.xb.busy[t] = none ∧ (∀ q ∈ s.xb.reqs, q.target ≠ t))
    && (List.finRange 19).all (fun u => match s.xb.busy[u] with
      | some b => decide (b.target ≠ t)
      | none => true)

theorem open_of {s : State} {t : Fin 19} (h : openB s t = true) : s.Open t := by
  simp only [openB, Bool.and_eq_true, decide_eq_true_eq, List.all_eq_true] at h
  refine ⟨h.1.1, h.1.2.1, h.1.2.2, fun u b hb => ?_⟩
  have := h.2 u (List.mem_finRange u)
  simpa [hb] using this

/-- Whether a master reaches an address. -/
def reachesB (s : State) (w : Who) (a : Nat) (wr : Bool) : Bool :=
  (match targetOf s.remap a with
   | some t => !s.targetOff t && openB s t
   | none => false) && (s.debugMay (s.carried w) a wr && s.pw.ask.isNone)

theorem reaches_of {s : State} {w : Who} {a : Nat} {wr : Bool} (h : reachesB s w a wr = true) : s.Reaches w a wr := by
  simp only [reachesB, Bool.and_eq_true, Option.isNone_iff_eq_none] at h
  refine ⟨?_, h.2⟩
  cases ht : targetOf s.remap a with
  | none => simp [ht] at h
  | some t =>
    simp only [ht, Bool.and_eq_true, Bool.not_eq_true'] at h
    exact ⟨t, rfl, h.1.1, open_of h.1.2⟩

theorem gs_of {s : State} {w : Who} {a : Nat} (h : (reachesB s w a true && decide ((s.carried w).mode = .gs)) = true) : s.ReachesGs w a := by
  simp only [Bool.and_eq_true, decide_eq_true_eq] at h
  exact ⟨reaches_of h.1, h.2⟩

/-- After start-up, with every hearth running in GS. -/
def wS : State :=
  { State.reset with
    pw := { Pw.reset with booted := true, ref := true, lf := true }
    xb := { Xbar.reset with released := true }
    hearths := Vector.replicate 64 { Hearth.reset with run := .running } }

/-- Hearth 0, in GS, through the port of its stack; the same hearth in PU. -/
def wG : Who := ⟨1, some 0, .gs⟩
def wP : Who := ⟨1, some 0, .pu⟩

/-- `wS` with hearth 0 changed. -/
def wH (f : Hearth → Hearth) : State := wS.modHearth 0 f

/-! ## Witnesses: compute, near and far accesses, flow (04 to 06) -/

theorem test_wit_multiply : ∃ (s : State) (h : Hid), (s.hearth h).ottUsed < 48 := ⟨wS, 63, by decide +kernel⟩

/-- HCTL.DZF set, and not. -/
def wDzf : State := wH fun x => { x with cr := [(0x008, 1)] }
theorem test_wit_divide : (∃ (s : State) (h : Hid), (s.hearth h).ottUsed < 48 ∧ (∀ f ∈ (s.hearth h).flights, f.unit = .div → f.due ≤ (s.hearth h).ic)
      ∧ (((s.hearth h).rd 0x008).getLsbD 0 = false ∨ (s.hearth h).opnd 0x2D ≠ 0))
    ∧ ∃ (s : State) (h : Hid), (s.hearth h).ottUsed < 48 ∧ (∀ f ∈ (s.hearth h).flights, f.unit = .div → f.due ≤ (s.hearth h).ic)
      ∧ ((s.hearth h).rd 0x008).getLsbD 0 = true ∧ (s.hearth h).opnd 0x2D = 0 :=
  ⟨⟨wS, 0, by decide +kernel⟩, ⟨wDzf, 0, by decide +kernel⟩⟩

/-- An accumulator operation about to end, with ACC at its greatest value. -/
def wAcc : Hearth := { Hearth.reset with acc := 0x7FFFFFFFFFFF }
theorem test_wit_accumulator : (∃ (f : Flight) (t o : Word), f.kind = .acc .mac t o)
    ∧ ∃ (f : Flight) (op : AccOp) (t o : Word) (w : Nat), f.kind = .acc op t o ∧ (op = .accr ∧ w = 32 ∨ op = .accrH ∧ w = 16) :=
  ⟨⟨⟨.mul, 3, 3, .acc .mac 1 1, false, false, false⟩, 1, 1, rfl⟩,
   ⟨⟨.mul, 3, 3, .acc .accrH 63 0, false, false, false⟩, .accrH, 63, 0, 16, rfl, by decide⟩⟩

/-- A result due and a later one, and none due. -/
def wFl : State := wH fun x => { x with flights := [⟨.alu0, 1, 1, .one 0 7, true, false, false⟩, ⟨.lsu0, 2, 2, .one 8 9, false, false, false⟩] }
/-- The same in Banked, where the clocks of the stacks stand. -/
def wBk : State := wS.setPw { wS.pw with st := 1 }
theorem test_wit_results : (∃ (s : State) (h : Hid), s.stackRuns (stackOf h) = false)
    ∧ (∃ (s : State) (h : Hid) (a b : List Flight) (f : Flight) (k j : Fin 15) (w x : Word), s.stackRuns (stackOf h) = true ∧
        (s.hearth h).flights = a ++ f :: b ∧ f.due ≤ (s.hearth h).ic + 1 ∧ (∀ e ∈ b, e.due ≤ (s.hearth h).ic + 1 → ¬ e.Delivers k)
        ∧ (f.kind = .one k w ∨ (f.kind = .two k j w x ∧ j ≠ k) ∨ f.kind = .two j k x w))
    ∧ (∃ (s : State) (h : Hid) (k : Fin 15), s.stackRuns (stackOf h) = true ∧ (s.hearth h).flights ≠ [] ∧
        ∀ f ∈ (s.hearth h).flights, f.due ≤ (s.hearth h).ic + 1 → ¬ f.Delivers k)
    ∧ (∃ (s : State) (h : Hid) (f : Flight), s.stackRuns (stackOf h) = true ∧ f ∈ (s.hearth h).flights ∧ f.due ≤ (s.hearth h).ic + 1 ∧ f.kind ≠ .idle
        ∧ (∀ o t u, f.kind ≠ .acc o t u) ∧ f.sov = true)
    ∧ ∃ (s : State) (h : Hid), s.stackRuns (stackOf h) = true ∧ (s.hearth h).sb = [] :=
  ⟨⟨wBk, 0, by decide +kernel⟩,
   ⟨wFl, 0, [], [⟨.lsu0, 2, 2, .one 8 9, false, false, false⟩], ⟨.alu0, 1, 1, .one 0 7, true, false, false⟩, 0, 0, 7, 0, by decide +kernel, by decide +kernel,
     by decide +kernel, fun e he hd => absurd hd (by
       have : e = ⟨.lsu0, 2, 2, .one 8 9, false, false, false⟩ := by simpa using he
       subst this; decide +kernel), .inl rfl⟩,
   ⟨wFl, 0, 8, by decide +kernel, by decide +kernel, fun f hf hd => by
       have : f = ⟨.alu0, 1, 1, .one 0 7, true, false, false⟩ ∨ f = ⟨.lsu0, 2, 2, .one 8 9, false, false, false⟩ := by
         have : f ∈ [(⟨.alu0, 1, 1, .one 0 7, true, false, false⟩ : Flight), ⟨.lsu0, 2, 2, .one 8 9, false, false, false⟩] := hf
         simpa using this
       rcases this with rfl | rfl
       · simp [Flight.Delivers]
       · exact absurd hd (by decide +kernel)⟩,
   ⟨wFl, 0, ⟨.alu0, 1, 1, .one 0 7, true, false, false⟩, by decide +kernel, List.mem_cons_self, by decide +kernel, by decide, by simp, rfl⟩,
   ⟨wFl, 0, by decide +kernel⟩⟩

theorem test_wit_loads : (∃ (s : State) (h : Hid) (u : Fin 2) (t : Word), (s.hearth h).ottUsed < 48 ∧ (u = 1 → (s.hearth h).lsu1Pend = false)
      ∧ s.mayNear h t 4 false ∧ ¬ (0xE000 ≤ t.toNat ∧ t.toNat < 0xE010) ∧ t.toNat < 0x8000
      ∧ (∀ e ∈ (s.hearth h).sb, ∀ i < 4, e.holds (s.localKey h t.toNat + i) = false))
    ∧ ∃ (s : State) (h : Hid) (u : Fin 2) (t : Word), (s.hearth h).ottUsed < 48 ∧ (u = 1 → (s.hearth h).lsu1Pend = false)
      ∧ s.mayNear h t 1 false ∧ ¬ (0xE000 ≤ t.toNat ∧ t.toNat < 0xE010) ∧ 0x8000 ≤ t.toNat
      ∧ (∀ e ∈ (s.hearth h).sb, ∀ i < 1, e.holds (s.localKey h t.toNat + i) = false) :=
  ⟨⟨wS, 0, 1, 0x7FFC, by unfold State.mayNear; decide +kernel⟩, ⟨wS, 0, 0, 0xEFFF, by unfold State.mayNear; decide +kernel⟩⟩

/-- A store buffer with eight entries, one more of which this word makes, and one with seven. -/
def wFull (n : Nat) : State := wH fun x => { x with sb := List.replicate n ⟨0x10, 0x100000010, 1, 0xF, .gs⟩ }
theorem test_wit_stores : (∃ (s : State) (h : Hid) (t : Word), s.mayNear h t 4 true ∧ (s.hearth h).sb.length - 1 + (s.hearth h).sbNew.length < 8 ∧
      (t.toNat < 0xC000 ∨ (0xE010 ≤ t.toNat ∧ ((s.hearth h).rd 0x050).getLsbD 25 = false)) ∧ t.toNat < 0xC000 ∧ (s.hearth h).sb.length = 8)
    ∧ (∃ (s : State) (h : Hid) (t : Word), s.mayNear h t 2 true ∧ (s.hearth h).sb.length - 1 + (s.hearth h).sbNew.length < 8 ∧
      (t.toNat < 0xC000 ∨ (0xE010 ≤ t.toNat ∧ ((s.hearth h).rd 0x050).getLsbD 25 = false)) ∧ 0xE010 ≤ t.toNat)
    ∧ ∃ (s : State) (h : Hid), 8 ≤ (s.hearth h).sb.length - 1 + (s.hearth h).sbNew.length ∧ (s.hearth h).sbNew.length < 8 :=
  ⟨⟨wFull 8, 0, 0xBFFC, by unfold State.mayNear; decide +kernel⟩, ⟨wS, 0, 0xEFFE, by unfold State.mayNear; decide +kernel⟩,
   ⟨(wFull 8).modHearth 0 (fun x => { x with sbNew := [⟨0x14, 0x100000014, 1, 0xF, .gs⟩] }), 0, by decide +kernel⟩⟩

theorem test_wit_near_faults : ∃ (s : State) (h : Hid) (u : Fin 2), (s.hearth h).ottUsed < 48 ∧ (u = 1 → (s.hearth h).lsu1Pend = false) ∧
    (s.hearth h).sb = [] ∧ (s.hearth h).sbNew.length < 8 ∧ (∃ t : Word, 0x10000 ≤ t.toNat) ∧ ∃ t : Word, t.toNat < 0x10000 ∧ t.toNat % 2 ≠ 0 :=
  ⟨wS, 0, 1, by decide +kernel, by decide +kernel, by decide +kernel, by decide +kernel, ⟨0x10000, by decide⟩, ⟨0xFFFF, by decide⟩⟩

/-- One store in the buffer: to LDM, to the doorbell port, to a control register. -/
def wSb (a k : Nat) : State := wH fun x => { x with sb := [⟨a, k, 0x11223344, 0xF, .gs⟩] }
/-- What the drain asks of a state with one buffered store. -/
def drainB (s : State) (e : SbEntry) : Bool :=
  invB s && decide ((s.hearth 0).sb = [e] ∧ (s.hearth 0).sbNew = [] ∧ s.stackRuns 0 = true
    ∧ (inFelt e.key = true → feltHearth e.key = 0 ∧ feltOff e.key % 4 = 0) ∧ s.portNow 0 = [])
theorem drain_of {s : State} {e : SbEntry} (h : drainB s e = true) : (s.hearth 0).sb = e :: [] ∧ (s.hearth 0).sbNew = [] ∧ s.Inv ∧
    s.stackRuns (stackOf 0) = true ∧ (inFelt e.key = true → feltHearth e.key = 0 ∧ feltOff e.key % 4 = 0) ∧ s.portNow 0 = [] := by
  simp only [drainB, Bool.and_eq_true, decide_eq_true_eq] at h
  exact ⟨h.2.1, h.2.2.1, inv_of h.1, h.2.2.2.1, h.2.2.2.2.1, h.2.2.2.2.2⟩
theorem test_wit_drain : (∀ p ∈ [(0x7FFC, 0x100007FFC), (0x9000, 0x20001000), (0xF000, 0), (0xF004, 0), (0xF880, 0), (0xF900, 0)],
      drainB (wSb p.1 p.2) ⟨p.1, p.2, 0x11223344, 0xF, .gs⟩ = true)
    ∧ drainB ((wSb 0xF900 0).modHearth 0 fun x => { x with sb := [⟨0xF900, 0, 7, 0xF, .pu⟩] }) ⟨0xF900, 0, 7, 0xF, .pu⟩ = true
    ∧ wBk.stackRuns (stackOf 0) = false ∧ (wS.hearth 0).sb = [] ∧ (wS.hearth 0).sbNew = [] := by decide +kernel

theorem test_wit_forward : ∃ (s : State) (h : Hid) (t : Word), t.toNat % 4 = 0 ∧ t.toNat < 0x8000 ∧ s.stackRuns (stackOf h) = true ∧ (s.hearth h).sb = [] ∧
    (s.hearth h).sbNew = [] ∧ (s.hearth h).flights = [] ∧ (s.hearth h).ottUsed < 48 ∧ (s.hearth h).lsu1Pend = false ∧
    (s.hearth h).brimOk false t.toNat (t.toNat + 3) false true (s.hearth h).mode = true ∧
    (s.hearth h).brimOk false t.toNat (t.toNat + 3) true false (s.hearth h).mode = true := ⟨wS, 0, 0x7FFC, by decide +kernel⟩

theorem test_wit_far : (∃ (s : State) (h : Hid) (t : Word) (tg : Fin 19), (s.hearth h).farHeld .ld = false ∧ t.toNat % 4 = 0 ∧
      (s.hearth h).brimOk true t.toNat (t.toNat + 4 - 1) true false (s.hearth h).mode = true ∧
      ((s.hearth h).farNode = 0x3FFF ∨ (s.hearth h).farNode = s.nodeId) ∧ targetOf s.remap t.toNat = some tg)
    ∧ ∃ (s : State) (h : Hid) (t : Word) (tg : Fin 19), (s.hearth h).farHeld .add = false ∧ t.toNat % 4 = 0 ∧
      (0x20000000 ≤ t.toNat ∧ t.toNat ≤ 0x213FFFFF) ∧ (s.hearth h).brimOk true t.toNat (t.toNat + 4 - 1) true true (s.hearth h).mode = true ∧
      ((s.hearth h).farNode = 0x3FFF ∨ (s.hearth h).farNode = s.nodeId) ∧ targetOf s.remap t.toNat = some tg :=
  ⟨⟨wS, 0, 0x10000000, 0, by decide +kernel⟩, ⟨wS, 0, 0x213FFFFC, 12, by decide +kernel⟩⟩

/-- A far access of hearth 0 to node 5, with port 1 UP on a ring; with no port UP; with every tag taken; and a full tracking table. -/
def wFarN : State := wH fun x => { x with op := x.op.set 10 5 }
def wRing : State := ({ wFarN with regs := [] } : State).setReg 0x40080008 1 |>.setReg 0x40080060 1 |>.modPort 1 (fun x => { x with state := 4 })
/-- The tags below `n`, all taken. -/
def manyTags (n : Nat) : List (Nat × TagUser × Nat) := (List.range n).map (fun t => (t, .far 0 t, 0))
theorem taken_of {s : State} (n : Nat) (hn : n = 1024) (h : s.lk.tags = manyTags n) : s.freeTag = none := by
  simp only [State.freeTag, List.find?_eq_none, h, Bool.and_eq_true, decide_eq_true_eq, Bool.not_eq_true', not_and]
  intro x _ hx
  have : (manyTags n).any (fun t => t.1 == x) = true :=
    List.any_eq_true.2 ⟨(x, .far 0 x, 0), List.mem_map.2 ⟨x, List.mem_range.2 (hn ▸ hx), rfl⟩, by simp⟩
  simp [this]
def wTags : State := { wFarN with lk := { wFarN.lk with tags := manyTags 1024 } }
def farLeavesB (s : State) (k : FarKind) (n : Nat) (t : Word) : Bool :=
  decide ((s.hearth 0).farHeld k = false ∧ t.toNat % n = 0 ∧ (s.hearth 0).farNode ≠ 0x3FFF ∧ (s.hearth 0).farNode ≠ s.nodeId
    ∧ (∀ f ∈ (s.hearth 0).far, f.id ≤ s.nextId))
theorem wTags_tags : wTags.lk.tags = manyTags 1024 := by simp only [wTags]
theorem test_wit_no_tag : farLeavesB wTags .ld 4 0x10000000 = true ∧ wTags.freeTag = none := by
  refine ⟨by decide +kernel, ?_⟩
  exact taken_of 1024 rfl wTags_tags
theorem test_wit_far_leaves : (farLeavesB wRing .swap 4 0x213FFFFC = true ∧ wRing.freeTag = some 0 ∧ wRing.lk.wait = [] ∧ wRing.portUp 1 = true ∧ wRing.topo = 1)
    ∧ (farLeavesB wFarN .sth 2 0x40000002 = true ∧ wFarN.freeTag = some 0 ∧ wFarN.lk.wait = [] ∧ ∀ p : Fin 4, wFarN.portUp p = false)
    ∧ ((wH fun x => { x with far := List.replicate 16 ⟨5, .ld, 0x3FFF, 0, 0, .lsu1, .gs, none, .waiting⟩ }).hearth 0).farHeld .ldhu = true := by decide +kernel

/-- Two far accesses, the first waiting, the second answered or failed. -/
def wFar0 : FarOp := ⟨4, .ld, 0x3FFF, 0x20000000, 0, .reg 2, .gs, none, .waiting⟩
def wFar (k : FarKind) (d : FarDest) (st : FarStatus) : State :=
  wH fun x => { x with far := [wFar0, ⟨5, k, 0x3FFF, 0x20000000, 0, d, .gs, none, st⟩] }
def wFar1 (k : FarKind) (d : FarDest) (st : FarStatus) : FarOp := ⟨5, k, 0x3FFF, 0x20000000, 0, d, .gs, none, st⟩
theorem wFar_first (k : FarKind) (d : FarDest) (st : FarStatus) (p : FarOp → Prop) (h : p (wFar1 k d st)) (h0 : ¬ p wFar0) :
    ((wFar k d st).hearth 0).FirstFar [wFar0] (wFar1 k d st) [] p :=
  ⟨rfl, h, fun q hq => by
    have : q = wFar0 := by simpa using hq
    exact this ▸ h0⟩
theorem test_wit_far_ends : (∃ (s : State) (h : Hid) (f : FarOp) (a b : List FarOp) (v : Word), (s.hearth h).FirstFar a f b (FarOp.Answered false) ∧ f.status = .answered v
      ∧ ∃ q, f.dest = .reg q)
    ∧ (∃ (s : State) (h : Hid) (f : FarOp) (a b : List FarOp) (v : Word), (s.hearth h).FirstFar a f b (FarOp.Answered false) ∧ f.status = .answered v ∧ f.dest = .sp .ps)
    ∧ (∃ (s : State) (h : Hid) (f : FarOp) (a b : List FarOp) (v : Word), (s.hearth h).FirstFar a f b (FarOp.Answered false) ∧ f.status = .answered v ∧ f.dest = .lsu1)
    ∧ (∃ (s : State) (h : Hid) (f : FarOp) (a b : List FarOp), (s.hearth h).FirstFar a f b (FarOp.Answered true))
    ∧ (∃ (s : State) (h : Hid) (f : FarOp) (a b : List FarOp) (c : Byte), s.Inv ∧ (s.hearth h).FirstFar a f b (fun f => ∃ c, f.status = .failed c)
      ∧ f.status = .failed c ∧ (s.hearth h).fap = false)
    ∧ (∃ (s : State) (h : Hid) (f : FarOp) (a b : List FarOp) (c : Byte), s.Inv ∧ (s.hearth h).FirstFar a f b (fun f => ∃ c, f.status = .failed c)
      ∧ f.status = .failed c ∧ (s.hearth h).fap = true)
    ∧ ∃ (s : State) (h : Hid), (∀ f ∈ (s.hearth h).far, f.status = .waiting) ∧ (s.hearth h).far ≠ [] :=
  ⟨⟨wFar .ld (.reg 30) (.answered 7), 0, _, _, _, 7, wFar_first _ _ _ _ ⟨rfl, 7, rfl⟩ (by simp [FarOp.Answered, wFar0]), rfl, 30, rfl⟩,
   ⟨wFar .ld (.sp .ps) (.answered 7), 0, _, _, _, 7, wFar_first _ _ _ _ ⟨rfl, 7, rfl⟩ (by simp [FarOp.Answered, wFar0]), rfl, rfl⟩,
   ⟨wFar .add .lsu1 (.answered 7), 0, _, _, _, 7, wFar_first _ _ _ _ ⟨rfl, 7, rfl⟩ (by simp [FarOp.Answered, wFar0]), rfl, rfl⟩,
   ⟨wFar .sth .nowhere (.answered 0), 0, _, _, _, wFar_first _ _ _ _ ⟨rfl, 0, rfl⟩ (by simp [FarOp.Answered, wFar0])⟩,
   ⟨wFar .st .nowhere (.failed 0x0C), 0, _, _, _, 0x0C, inv_of (by decide +kernel), wFar_first _ _ _ _ ⟨_, rfl⟩ (by simp [wFar0]), rfl, by decide +kernel⟩,
   ⟨(wFar .st .nowhere (.failed 0x0C)).modHearth 0 (fun x => { x with fap := true }), 0, wFar1 .st .nowhere (.failed 0x0C), [wFar0], [], 0x0C, inv_of (by decide +kernel),
     ⟨rfl, ⟨_, rfl⟩, fun q hq => by
       have : q = wFar0 := by simpa using hq
       subst this; simp [wFar0]⟩, rfl, by decide +kernel⟩,
   ⟨wH fun x => { x with far := [wFar0] }, 0, by decide +kernel, by decide +kernel⟩⟩

/-- A word far from every loop end, at the last address that counts as such. -/
def wPc : State := wH fun x => { x with pc := 0x7FFD }
theorem test_wit_straight : (∃ (s : State) (h : Hid), (s.hearth h).Straight) ∧ ∃ (s : State) (h : Hid), (s.hearth h).Straight ∧ fld (s.hearth h).lpa 0 16 ≠ 0 :=
  ⟨⟨wPc, 0, by unfold Hearth.Straight; decide +kernel⟩,
   ⟨wH fun x => { x with pc := 4, lpa := 1, lps := 3, lpe := 7 }, 0, by unfold Hearth.Straight; decide +kernel⟩⟩

theorem test_wit_loop : (∃ (s : State) (h : Hid) (t : Word) (n e : Nat), (s.hearth h).Straight ∧ fld (s.hearth h).lpa 0 16 = 0 ∧ fld (s.hearth h).lpa 16 16 = 0 ∧
      n = (if t.toNat % 2 ^ 16 ≠ 0 then t.toNat % 2 ^ 16 else (s.hearth h).lpc.toNat % 2 ^ 16) ∧
      e = ((s.hearth h).opnd 0x2F).toNat % 2 ^ 15 ∧ (s.hearth h).pc.toNat + 1 ≤ e ∧ e < 0x7FFF ∧ n ≠ 0)
    ∧ ∃ (s : State) (h : Hid) (t : Word) (n e : Nat), (s.hearth h).Straight ∧ fld (s.hearth h).lpa 0 16 = 0 ∧ fld (s.hearth h).lpa 16 16 = 0 ∧
      n = (if t.toNat % 2 ^ 16 ≠ 0 then t.toNat % 2 ^ 16 else (s.hearth h).lpc.toNat % 2 ^ 16) ∧
      e = ((s.hearth h).opnd 0x2F).toNat % 2 ^ 15 ∧ (s.hearth h).pc.toNat + 1 ≤ e ∧ e < 0x7FFF ∧ n = 0 :=
  ⟨⟨wH fun x => { x with op := x.op.set 7 1, pc := 0 }, 0, 0xFFFF, 0xFFFF, 1, by unfold Hearth.Straight; decide +kernel⟩,
   ⟨wH fun x => { x with op := x.op.set 7 0x7FFE, pc := 0x10 }, 0, 0, 0, 0x7FFE, by unfold Hearth.Straight; decide +kernel⟩⟩

theorem test_wit_inner_loop : ∃ (s : State) (h : Hid) (t : Word) (n e : Nat), (s.hearth h).Straight ∧ fld (s.hearth h).lpa 0 16 ≠ 0 ∧ fld (s.hearth h).lpa 16 16 = 0 ∧
    n = (if t.toNat % 2 ^ 16 ≠ 0 then t.toNat % 2 ^ 16 else (s.hearth h).lpc.toNat % 2 ^ 16) ∧ n ≠ 0 ∧
    e = ((s.hearth h).opnd 0x2F).toNat % 2 ^ 15 ∧ (s.hearth h).pc.toNat + 1 ≤ e ∧ e ≤ fld (s.hearth h).lpe 0 15 :=
  ⟨wH fun x => { x with op := x.op.set 7 0x20, pc := 0x10, lpa := 3, lps := 0xF, lpe := 0x20 }, 0, 0xFFFF, 0xFFFF, 0x20, by unfold Hearth.Straight; decide +kernel⟩

theorem test_wit_rep_brk : (∃ (s : State) (h : Hid) (k : BitVec 16) (n : Nat), (s.hearth h).Straight ∧
      n = (if k.toNat ≠ 0 then k.toNat else (s.hearth h).repc.toNat % 2 ^ 16) ∧ n ≠ 0)
    ∧ (∃ (s : State) (h : Hid) (k : BitVec 16) (n : Nat), (s.hearth h).Straight ∧
      n = (if k.toNat ≠ 0 then k.toNat else (s.hearth h).repc.toNat % 2 ^ 16) ∧ n = 0)
    ∧ (∃ (s : State) (h : Hid), (s.hearth h).Straight ∧ (s.hearth h).entry = none ∧ (s.hearth h).sb = [] ∧ (s.hearth h).sbNew = [] ∧ ((s.hearth h).rd 0x008).getLsbD 2 = true)
    ∧ ∃ (s : State) (h : Hid), (s.hearth h).Straight ∧ (s.hearth h).entry = none ∧ (s.hearth h).sb = [] ∧ (s.hearth h).sbNew = [] ∧ ((s.hearth h).rd 0x008).getLsbD 2 = false :=
  ⟨⟨wS, 0, 1, 1, by unfold Hearth.Straight; decide +kernel⟩, ⟨wS, 0, 0, 0, by unfold Hearth.Straight; decide +kernel⟩,
   ⟨wH fun x => { x with cr := [(0x008, 4)] }, 0, by unfold Hearth.Straight; decide +kernel⟩, ⟨wS, 0, by unfold Hearth.Straight; decide +kernel⟩⟩


/-! ## Witnesses: timer, control registers, words, entries (03, 05, 07) -/

theorem test_wit_timer : (∃ (s : State) (h : Hid) (t : Word), s.Inv ∧ s.stackRuns (stackOf h) = true ∧ (s.hearth h).ottUsed < 48 ∧ s.nsCount h < t.toNat)
    ∧ (∃ (s : State) (h : Hid) (t : Word), s.Inv ∧ s.stackRuns (stackOf h) = true ∧ (s.hearth h).ottUsed < 48 ∧ t.toNat ≤ s.nsCount h)
    ∧ (∃ (s : State) (h : Hid) (t : Word) (e : Nat), s.Inv ∧ s.stackRuns (stackOf h) = true ∧ (s.hearth h).wait = .twait t e ∧ (t.toNat ≤ s.nsCount h ∨ e ≠ s.epochOf h))
    ∧ ∃ (s : State) (h : Hid), s.Inv ∧ s.stackRuns (stackOf h) = true ∧ (s.hearth h).armed = true ∧ ((s.hearth h).rd 0x080).toNat ≤ s.nsCount h :=
  ⟨⟨{ wS with td := 99 }, 0, 100, inv_of (by decide +kernel), by decide +kernel, by decide +kernel⟩, ⟨{ wS with td := 100 }, 0, 100, inv_of (by decide +kernel), by decide +kernel, by decide +kernel⟩,
   ⟨wH fun x => { x with wait := .twait 5 3 }, 0, 5, 3, inv_of (by decide +kernel), by decide +kernel, by decide +kernel⟩,
   ⟨{ wH fun x => { x with armed := true, cr := [(0x080, 50)] } with td := 50 }, 0, inv_of (by decide +kernel), by decide +kernel, by decide +kernel⟩⟩

theorem test_wit_csr : (∃ (s : State) (h : Hid) (t : Word), s.Inv ∧ (s.hearth h).sb = [] ∧ (s.hearth h).ottUsed < 48 ∧ t.toNat % 2 ^ 11 = 0x008 ∧ (s.hearth h).mode = .gs)
    ∧ (∃ (s : State) (h : Hid) (t : Word), s.Inv ∧ (s.hearth h).sb = [] ∧ (s.hearth h).ottUsed < 48 ∧ t.toNat % 4 ≠ 0)
    ∧ ∃ (s : State) (h : Hid) (t : Word), s.Inv ∧ (s.hearth h).sb = [] ∧ (s.hearth h).ottUsed < 48 ∧ t.toNat % 2 ^ 11 = 0x008
      ∧ ((s.hearth h).mode = .pu ∨ (s.hearth h).mode = .gu) :=
  ⟨⟨wS, 0, 8, inv_of (by decide +kernel), by decide +kernel⟩, ⟨wS, 0, 9, inv_of (by decide +kernel), by decide +kernel⟩, ⟨wH fun x => { x with mode := .gu }, 0, 8, inv_of (by decide +kernel), by decide +kernel⟩⟩

/-- A word written at address 0 of the program store of stack 0. -/
def wWord (n : Nat) : State := wS.setBytes 0x30000000 (leBytes 12 n)

/-- HALT; and g1 and g2 exchanged, with two moves that do nothing. -/
def wHalt : Nat := 3 * 2 ^ 94 + 5 * 2 ^ 80
def wSwap : Nat := 0x201 * 2 ^ 66 + 0x102 * 2 ^ 44 + 0xFF * 2 ^ 22 + 0xFF

theorem test_wit_system_words : (∃ (s : State) (h : Hid) (q : SysWord), s.AtWord h ∧ (s.hearth h).rep = none ∧ decodeFault (s.wordAt h (s.hearth h).pc.toNat) = none
      ∧ (s.hearth h).sysHazard = false ∧ tmpl (s.wordAt h (s.hearth h).pc.toNat) = 3 ∧ sysWordOf (s.wordAt h (s.hearth h).pc.toNat) = some q)
    ∧ (∃ (s : State) (h : Hid) (c : Byte), s.AtWord h ∧ (s.hearth h).rep = none ∧ decodeFault (s.wordAt h (s.hearth h).pc.toNat) = some c)
    ∧ ∃ (s : State) (h : Hid), s.AtWord h ∧ (s.hearth h).rep = none ∧ decodeFault (s.wordAt h (s.hearth h).pc.toNat) = none
      ∧ (s.hearth h).placeFault (s.wordAt h (s.hearth h).pc.toNat) = true :=
  ⟨⟨wWord wHalt, 0, .halt, by unfold State.AtWord; decide +kernel⟩, ⟨wWord (3 * 2 ^ 94), 0, 1, by unfold State.AtWord; decide +kernel⟩,
   ⟨(wWord wHalt).modHearth 0 fun x => { x with pbrV := true, pbrRem := 2 }, 0, by unfold State.AtWord; decide +kernel⟩⟩

theorem test_wit_moves : (∃ (s : State) (h : Hid) (w : IWord), s.AtWord h ∧ s.PlainMoves h w ∧ (s.hearth h).rep = none ∧ fld (s.hearth h).repc 16 16 = 0 ∧
      s.wordAt h (s.hearth h).pc.toNat = w ∧ (s.hearth h).Straight ∧ (∃ (r : Fin 31) (m : Move), m ∈ movesOf w ∧ (s.hearth h).active m = true ∧ m.dst = r.val)
      ∧ ∃ r : Fin 31, ∀ m ∈ movesOf w, (s.hearth h).active m = true → m.dst ≠ r.val)
    ∧ ∃ (s : State) (h : Hid) (w : IWord), s.AtWord h ∧ s.PlainMoves h w ∧ (s.hearth h).rep = some w ∧ 1 < fld (s.hearth h).repc 16 16 :=
  ⟨⟨wWord wSwap, 0, BitVec.ofNat 96 wSwap, by unfold State.AtWord; decide +kernel, by unfold State.PlainMoves; decide +kernel, by decide +kernel, by decide +kernel,
      by decide +kernel, by unfold Hearth.Straight; decide +kernel, ⟨1, moveOf 0x201, by decide +kernel⟩, ⟨0, by decide +kernel⟩⟩,
   ⟨wH fun x => { x with rep := some (BitVec.ofNat 96 wSwap), repc := 0x20000 }, 0, BitVec.ofNat 96 wSwap, by unfold State.AtWord; decide +kernel,
      by unfold State.PlainMoves; decide +kernel, by decide +kernel⟩⟩

/-- Gate 63, to 0x123 in GS for callers of PU, without arguments. -/
def wGate : State := (wH fun x => { x with mode := .pu }).wr32 0x1200FFE0 0x80130123
theorem test_wit_trap_gate : (∃ (s : State) (h : Hid), (s.hearth h).Straight ∧ (s.hearth h).sb = [] ∧ (s.hearth h).sbNew = [])
    ∧ (∃ (s : State) (h : Hid) (g : BitVec 6), (s.hearth h).Straight ∧ (s.hearth h).sb = [] ∧ (s.hearth h).sbNew = [] ∧ s.gateCheck h g = none)
    ∧ ∃ (s : State) (h : Hid) (g : BitVec 6) (a why : Nat), (s.hearth h).Straight ∧ (s.hearth h).sb = [] ∧ (s.hearth h).sbNew = [] ∧ s.Inv ∧
      (s.hearth h).entry = none ∧ s.gateCheck h g = some (a, why) :=
  ⟨⟨wS, 0, by unfold Hearth.Straight; decide +kernel⟩, ⟨wGate, 0, 63, by unfold Hearth.Straight; decide +kernel⟩,
   ⟨wGate, 0, 62, 0, 0, by unfold Hearth.Straight; decide +kernel, rfl, rfl, inv_of (by decide +kernel), by decide +kernel⟩⟩

/-- An entry asked for by TRAP, with the frame pointers at `n` slots. -/
def wEntry (k : EntryKind) (c : Byte) (n : Word) : State :=
  wH fun x => { x with mode := .pu, entry := some ⟨k, c, 9, 0x40, false, 0, false⟩, cr := [(0x01C, n), (0x12C, n), (0x130, 0x80), (0x134, 0x80)] }
theorem test_wit_entry : (∃ (s : State) (h : Hid) (e : EntryReq) (t : Target), s.Inv ∧ (s.hearth h).entry = some e ∧ (∀ k, e.kind ≠ .line k) ∧
      (s.hearth h).target e = some t ∧ (s.hearth h).sb = [] ∧ (s.hearth h).sbNew = [] ∧ (s.hearth h).flights = [] ∧ (s.hearth h).noRoom t.mode = false
      ∧ s.stackRuns (stackOf h) = true)
    ∧ (∃ (s : State) (h : Hid) (e : EntryReq), s.Inv ∧ (s.hearth h).entry = some e ∧ (∀ k, e.kind ≠ .line k) ∧ s.stackRuns (stackOf h) = true ∧
      (s.hearth h).sb = [] ∧ (s.hearth h).sbNew = [] ∧ (s.hearth h).computing = false ∧ (s.hearth h).fnsLate = [] ∧ (s.hearth h).target e = none)
    ∧ ∃ (s : State) (h : Hid) (e : EntryReq) (t : Target), s.Inv ∧ (s.hearth h).entry = some e ∧ (∀ k, e.kind ≠ .line k) ∧ s.stackRuns (stackOf h) = true ∧
      (s.hearth h).sb = [] ∧ (s.hearth h).sbNew = [] ∧ (s.hearth h).computing = false ∧ (s.hearth h).fnsLate = [] ∧
      (s.hearth h).target e = some t ∧ (s.hearth h).noRoom t.mode = true :=
  ⟨⟨wEntry .trap 0x10 0x100, 0, _, _, inv_of (by decide +kernel), rfl, by simp, rfl, rfl, rfl, rfl, by decide +kernel⟩,
   ⟨(wEntry (.fault 7) 0x04 0x100).modHearth 0 fun x => { x with ml := 7, mode := .gs, wfg := true }, 0, _, inv_of (by decide +kernel), rfl, by simp, by decide +kernel⟩,
   ⟨wEntry .trap 0x10 0x80, 0, _, _, inv_of (by decide +kernel), rfl, by simp, by decide +kernel, rfl, rfl, rfl, rfl, rfl, by decide +kernel⟩⟩

theorem test_wit_interrupt : (∃ (s : State) (h : Hid), (s.hearth h).run = .running ∧ (s.hearth h).entry = none ∧ s.stackRuns (stackOf h) = true ∧ (s.hearth h).fap = true)
    ∧ (∃ (s : State) (h : Hid), (s.hearth h).run = .running ∧ (s.hearth h).entry = none ∧ s.stackRuns (stackOf h) = true ∧ (s.hearth h).fap = false
      ∧ (s.hearth h).nmi31 = true)
    ∧ (∃ (s : State) (h : Hid), (s.hearth h).run = .running ∧ (s.hearth h).entry = none ∧ s.stackRuns (stackOf h) = true ∧ (s.hearth h).fap = false
      ∧ (s.hearth h).nmi31 = false ∧ (s.hearth h).nmi30 = true)
    ∧ ∃ (s : State) (h : Hid) (k : Nat), (s.hearth h).run = .running ∧ (s.hearth h).entry = none ∧ s.stackRuns (stackOf h) = true ∧ (s.hearth h).fap = false
      ∧ (s.hearth h).nmi31 = false ∧ (s.hearth h).nmi30 = false ∧ (s.hearth h).bestLine (s.icpend h) = some k :=
  ⟨⟨wH fun x => { x with fap := true }, 0, by decide +kernel⟩, ⟨wH fun x => { x with nmi31 := true }, 0, by decide +kernel⟩,
   ⟨wH fun x => { x with nmi30 := true }, 0, by decide +kernel⟩,
   ⟨wH fun x => { x with mode := .ps, mlDec := 0, icpend := 0x10, cr := [(0x104, 0x10), (0x110, 0x50000)] }, 0, 4, by decide +kernel⟩⟩

/-- A frame at slot 2, to return to 0x1234 in PU; the frame pointer at slot 0, and one that leaves no slot. -/
def wRet (p : Word) : State := (wH fun x => { x with mode := .ps, cr := [(0x01C, p)] }).wr32 0x100000100 0x1234
theorem test_wit_return : (∃ (s : State) (h : Hid) (f : Nat → Word), s.Inv ∧ (s.hearth h).sysHazard = false ∧ (s.hearth h).sb = [] ∧
      (∀ i, f i = s.rd32 (ldmKey h (((s.hearth h).slot (s.hearth h).mode + 2) * 128 + 4 * i))) ∧ (s.hearth h).slot (s.hearth h).mode + 2 ≤ 0xFF ∧
      returnOk (s.hearth h).mode false ((f 0).getLsbD 15) (modeOf (fld (f 1) 4 2)) = true)
    ∧ ∃ (s : State) (h : Hid) (f : Nat → Word), s.Inv ∧ (s.hearth h).sysHazard = false ∧ (s.hearth h).sb = [] ∧
      (∀ i, f i = s.rd32 (ldmKey h (((s.hearth h).slot (s.hearth h).mode + 2) * 128 + 4 * i))) ∧
      (0xFF < (s.hearth h).slot (s.hearth h).mode + 2) ∧ (s.hearth h).entry = none :=
  ⟨⟨wRet 0, 0, _, inv_of (by decide +kernel), by decide +kernel, rfl, fun _ => rfl, by decide +kernel⟩,
   ⟨wRet 0x7F00, 0, _, inv_of (by decide +kernel), by decide +kernel, rfl, fun _ => rfl, by decide +kernel⟩⟩

theorem test_wit_system_rows : (∃ (s : State) (h : Hid), s.Inv ∧ (s.hearth h).Straight ∧ (s.hearth h).sb = [] ∧ (s.hearth h).sbNew = [] ∧ (s.hearth h).doorbell = 0
        ∧ (s.startIssue h).boundary h = none ∧ (s.hearth h).far = [] ∧ ((s.hearth h).rd 0x04C).getLsbD 31 = false ∧ (s.hearth h).takesPart 0 .stack = false)
    ∧ (∃ (s : State) (h : Hid), s.Inv ∧ (s.hearth h).Straight ∧ (s.hearth h).sb = [] ∧ (s.hearth h).sbNew = [] ∧ ((s.startIssue h).boundary h).isSome = true
        ∧ (s.hearth h).wait = .none)
    ∧ (∃ (s : State) (h : Hid), s.Inv ∧ (s.hearth h).Straight ∧ (s.hearth h).sb = [] ∧ (s.hearth h).sbNew = [] ∧ (s.hearth h).far ≠ [])
    ∧ (∃ (s : State) (h : Hid), s.Inv ∧ (s.hearth h).Straight ∧ (s.hearth h).sb = [] ∧ (s.hearth h).sbNew = [] ∧ (s.hearth h).takesPart 0 .device = true)
    ∧ ∃ (s : State) (h : Hid), s.Inv ∧ (s.hearth h).Straight ∧ (s.hearth h).sb = [] ∧ (s.hearth h).sbNew = [] ∧ (s.hearth h).run = .halted :=
  ⟨⟨wH fun x => { x with cr := [(0x460, 0)] }, 0, inv_of (by decide +kernel), by unfold Hearth.Straight; decide +kernel⟩,
   ⟨wH fun x => { x with fap := true }, 0, inv_of (by decide +kernel), by unfold Hearth.Straight; decide +kernel⟩,
   ⟨wFar .st .nowhere .waiting, 0, inv_of (by decide +kernel), by unfold Hearth.Straight; decide +kernel⟩,
   ⟨wS, 0, inv_of (by decide +kernel), by unfold Hearth.Straight; decide +kernel⟩,
   ⟨wH fun x => { x with run := .halted }, 0, inv_of (by decide +kernel), by unfold Hearth.Straight; decide +kernel⟩⟩


/-! ## Witnesses: mailboxes, locks, register commands, crossbar (13, 14) -/

theorem test_wit_mbx_triggers : ∃ (s : State) (h : Hid), (s.hearth h).mbx = none ∧ (s.hearth h).sb = [] ∧ (s.hearth h).ottUsed < 48
      ∧ ((∃ o : Word, o.toNat % 4 = 0 ∧ o.toNat + 32 ≤ 0x8000 ∧ (s.hearth h).opnd 0x34 = o)
        ∧ ∃ s : State, (s.hearth h).mbx = none ∧ (s.hearth h).sb = [] ∧ (s.hearth h).ottUsed < 48
          ∧ (((s.hearth h).opnd 0x34).toNat % 4 ≠ 0 ∨ 0x8000 < ((s.hearth h).opnd 0x34).toNat + 32)) :=
  ⟨wH fun x => { x with op := x.op.set 12 0x7FE0 }, 0, by decide +kernel, by decide +kernel, by decide +kernel, ⟨0x7FE0, by decide +kernel⟩,
   wH fun x => { x with op := x.op.set 12 0x7FE4 }, by decide +kernel⟩

/-- Hearth 0 with an MBX operation; mailbox 63 enabled for receiver `r`, with messages. -/
def wMbx (q : MbxReq) (r : Word) (l : List Msg) : State :=
  { wH fun x => { x with mbx := some q } with
    regs := [(0x400901FC, 0x80 ||| r)]
    hub := { State.reset.hub with boxes := State.reset.hub.boxes.set 63 l } }
theorem test_wit_posts : (∃ (s : State) (h : Hid) (q : MbxReq) (n : Nat), (s.hearth h).mbx = some q ∧ q.kind = .post ∧ q.answer = none ∧ q.mode = .ps ∧
    n = fld q.t 0 7 ∧ n < 64 ∧ mbEn (s.mbcfg n) = true ∧ mbRcv (s.mbcfg n) ≠ h ∧ (s.hearth (mbRcv (s.mbcfg n))).run ≠ .held ∧
    s.hub.outs = [] ∧ (s.box n).length < 8)
  ∧ (∃ (s : State) (h : Hid) (q : MbxReq) (n : Nat) (g : Msg) (r : List Msg), (s.hearth h).mbx = some q ∧ q.kind = .fetch ∧
    q.answer = none ∧ q.mode = .ps ∧ n = fld q.t 0 7 ∧ n < 64 ∧ mbEn (s.mbcfg n) = true ∧ mbRcv (s.mbcfg n) = h ∧ s.box n = g :: r)
  ∧ (∃ (s : State) (h : Hid) (q : MbxReq) (a : Word), s.Inv ∧ (s.hearth h).mbx = some q ∧ q.kind = .fetch ∧ q.answer = some a ∧
    q.bytes.length % 4 = 0) :=
  ⟨⟨wMbx ⟨.post, 63, 0, .ps, [1, 2], none⟩ 5 (List.replicate 7 ⟨1, [7], .hearth 3, 0⟩), 0, ⟨.post, 63, 0, .ps, [1, 2], none⟩, 63, by decide +kernel⟩,
   ⟨wMbx ⟨.fetch, 63, 0, .ps, [], none⟩ 0 [⟨1, [7, 8, 9, 10], .hearth 3, 0⟩], 0, ⟨.fetch, 63, 0, .ps, [], none⟩, 63, ⟨1, [7, 8, 9, 10], .hearth 3, 0⟩, [], by decide +kernel⟩,
   ⟨wMbx ⟨.fetch, 63, 0x7FE0, .ps, [7, 8, 9, 10], some 0x400⟩ 0 [], 0, ⟨.fetch, 63, 0x7FE0, .ps, [7, 8, 9, 10], some 0x400⟩, 0x400, inv_of (by decide +kernel), by decide +kernel⟩⟩

/-- A lock held. -/
def wLock (n : Fin 64) (i : Nat) : State := { wS with hub := { State.reset.hub with locks := State.reset.hub.locks.set n (some i) } }
theorem test_wit_doorbells_locks : (∃ (s : State) (w : Who) (v : Word), s.Reaches w 0x40090020 true ∧ (isG (s.carried w).mode = true ∨ fld v 0 6 < 48))
  ∧ (∃ (s : State) (w : Who) (n : Fin 64) (i : Nat), s.Inv ∧ s.Reaches w (0x40090800 + 4 * n.val) true ∧ s.Reaches w (0x40090800 + 4 * n.val) false ∧
    lockId (s.carried w) = some i ∧ isG (s.carried w).mode = true ∧ s.lock n.val = none)
  ∧ (∃ (s : State) (w : Who) (n : Fin 64) (i : Nat), s.Inv ∧ s.Reaches w (0x40090800 + 4 * n.val) true ∧ s.Reaches w (0x40090800 + 4 * n.val) false ∧
    lockId (s.carried w) = some i ∧ n.val < 48 ∧ s.lock n.val = some i)
  ∧ (∃ (s : State) (w : Who) (n : Fin 64) (i : Nat) (x : Word), s.Inv ∧ s.Reaches w (0x40090800 + 4 * n.val) true ∧ s.Reaches w (0x40090800 + 4 * n.val) false ∧
    lockId (s.carried w) = some i ∧ n.val < 48 ∧ (x ≠ 0 ∨ s.lock n.val ≠ some i))
  ∧ ∃ (s : State) (w : Who) (n : Fin 64) (i : Nat), s.Inv ∧ s.Reaches w (0x40090800 + 4 * n.val) true ∧ s.Reaches w (0x40090800 + 4 * n.val) false ∧
    lockId (s.carried w) = some i ∧ isG (s.carried w).mode = false ∧ 48 ≤ n.val :=
  ⟨⟨wS, wP, 47, reaches_of (by decide +kernel), by decide +kernel⟩,
   ⟨wS, wG, 63, 0, inv_of (by decide +kernel), reaches_of (by decide +kernel), reaches_of (by decide +kernel), by decide +kernel⟩,
   ⟨wLock 47 0, wP, 47, 0, inv_of (by decide +kernel), reaches_of (by decide +kernel), reaches_of (by decide +kernel), by decide +kernel⟩,
   ⟨wLock 47 9, wP, 47, 0, 0, inv_of (by decide +kernel), reaches_of (by decide +kernel), reaches_of (by decide +kernel), by decide +kernel⟩,
   ⟨wS, wP, 48, 0, inv_of (by decide +kernel), reaches_of (by decide +kernel), reaches_of (by decide +kernel), by decide +kernel⟩⟩

/-- Message 4 of hearth 2 in mailbox 0, posted at 0, with its record; MBXTO at 1 us, and 1 us gone. -/
def wPosted (sv : Word) : State :=
  { wS.modHearth 2 fun x => { x with pstat := [(0, 4, 7)] } with
    regs := [(0x40090000, sv), (0x40090004, 1)], now := 1000
    hub := { State.reset.hub with boxes := State.reset.hub.boxes.set 0 [⟨4, [7], .hearth 2, 0⟩] } }
/-- Its like as an outbound post with tag 9. -/
def wOut : State :=
  { wS.modHearth 2 fun x => { x with pstat := [(96, 4, 7)] } with
    regs := [(0x40090000, 1), (0x40090004, 1)], now := 1000
    hub := { State.reset.hub with outs := [⟨4, 96, .hearth 2, .ps, [7], 0, some 9⟩] } }
theorem test_wit_mailbox_times : (∃ (s : State) (m : Fin 128) (g : Msg) (r : List Msg) (h : Hid) (x : Byte), s.Inv ∧ s.hub.boxes[m] = g :: r ∧
      fld (s.reg 0x40090000) 0 2 ≠ 0 ∧ g.posted + 1000 * fld (s.reg 0x40090004) 0 24 ≤ s.now ∧
      (s.fetchComes m.val = false ∨ g.posted + 1000 * fld (s.reg 0x40090004) 0 24 + 8 ≤ s.now) ∧ g.sender = .hearth h ∧
      (s.hearth h).pstatOf m.val = some (g.id, x))
    ∧ ∃ (s : State) (n t : Nat) (o : OutPost) (h : Hid) (x : Byte), s.hub.outs[n]? = some o ∧ o.tag = some t ∧ fld (s.reg 0x40090000) 0 2 ≠ 0 ∧
      o.posted + 1000 * fld (s.reg 0x40090004) 0 24 ≤ s.now ∧ o.sender = .hearth h ∧ (s.hearth h).pstatOf o.box = some (o.id, x) :=
  ⟨⟨wPosted 1, 0, ⟨4, [7], .hearth 2, 0⟩, [], 2, 7, inv_of (by decide +kernel), by decide +kernel⟩,
   ⟨wOut, 0, 9, ⟨4, 96, .hearth 2, .ps, [7], 0, some 9⟩, 2, 7, by decide +kernel⟩⟩

def wN : Who := ⟨12, none, .pu⟩
theorem test_wit_mailbox_registers : (∃ (s : State) (w : Who) (m : Fin 128), s.Inv ∧ s.ReachesGs w (0x40090100 + 4 * m.val) ∧ (s.reg 0x40090000).getLsbD 8 = true)
    ∧ (∃ (s : State) (w : Who) (m : Fin 128) (g : Msg) (h : Hid) (y : Byte), s.Inv ∧ s.ReachesGs w (0x40090100 + 4 * m.val) ∧ (s.reg 0x40090000).getLsbD 8 = false ∧
        s.hub.boxes[m] = [g] ∧ g.sender = .hearth h ∧ (s.hearth h).pstatOf m.val = some (g.id, y))
    ∧ (∃ (s : State) (w : Who) (k : Fin 5) (x : Word) (n : Nat), s.Inv ∧ s.Reaches w (0x40090620 + 64 * k.val) true ∧ stagingOf (s.carried w).master = some k ∧ stagingOf w.master = some k ∧
        n = fld x 0 7 ∧ n < 64 ∧ mbEn (s.mbcfg n) = true ∧ (s.hearth (mbRcv (s.mbcfg n))).run ≠ .held ∧ s.hub.outs = [] ∧ (s.box n).length < 8)
    ∧ ∃ (s : State) (w : Who) (k : Fin 2), s.ReachesGs w (0x40090A00 + 4 * k.val) :=
  ⟨⟨{ wS with regs := [(0x40090000, 0x100)] }, wG, 127, inv_of (by decide +kernel), gs_of (by decide +kernel), by decide +kernel⟩,
   ⟨wPosted 1, wG, 0, ⟨4, [7], .hearth 2, 0⟩, 2, 7, inv_of (by decide +kernel), gs_of (by decide +kernel), by decide +kernel⟩,
   ⟨{ wS with regs := [(0x40090100, 0x80)] }, wN, 2, 0x1F00, 0, inv_of (by decide +kernel), reaches_of (by decide +kernel), by decide +kernel⟩,
   ⟨wS, wG, 1, gs_of (by decide +kernel)⟩⟩

theorem test_wit_aliases : (∃ (s : State) (w : Who) (a : Word), s.Inv ∧ s.Reaches w (0x18000000 + a.toNat) true ∧ s.Reaches w (0x19000000 + a.toNat) true
      ∧ a.toNat < 0x200000 ∧ a.toNat % 4 = 0)
    ∧ (∃ (s : State) (w : Who) (a : Word), s.Inv ∧ s.Reaches w a.toNat true ∧ FeltWord a.toNat ∧ 1 ≤ w.master.val ∧ w.master.val ≤ 11)
    ∧ ∃ (s : State) (a : Word), s.Inv ∧ (a.toNat < 0x20000000 ∨ 0x21400000 ≤ a.toNat) ∧ ∃ t, targetOf s.remap a.toNat = some t ∧ s.Open t :=
  ⟨⟨wS, wG, 0x1FFFFC, inv_of (by decide +kernel), reaches_of (by decide +kernel), reaches_of (by decide +kernel), by decide +kernel⟩,
   ⟨wS, wG, 0x213FFFFC, inv_of (by decide +kernel), reaches_of (by decide +kernel), by unfold FeltWord; decide +kernel, by decide, by decide⟩,
   ⟨wS, 0x10000000, inv_of (by decide +kernel), by decide +kernel, 0, by decide +kernel, open_of (by decide +kernel)⟩⟩

theorem test_wit_register_commands : (∃ (s : State) (w : Who), s.Inv ∧ s.ReachesGs w 0x40030018 ∧ (s.reg 0x40030000).getLsbD 0 = false)
    ∧ (∃ (s : State) (w : Who), s.Inv ∧ s.Reaches w 0x40030018 true ∧ (s.carried w).mode ≠ .gs)
    ∧ (∃ (s : State) (w : Who), s.Inv ∧ s.Reaches w 0x40030028 false)
    ∧ (∃ (s : State) (w : Who) (n : Nat), s.Inv ∧ s.Reaches w 0x4010001C false ∧ s.pw.lf = true ∧
        n = min ((s.pw.anow + (s.now - s.pw.mark) * 32768) / 1000000000) (2 ^ 48 - 1))
    ∧ (∃ (s : State) (w : Who) (x : Word), s.Inv ∧ s.ReachesGs w 0x40000004 ∧ x.getLsbD 0 = true)
    ∧ ∃ (s : State) (a : Word), s.Inv ∧ targetOf s.remap a.toNat = none :=
  ⟨⟨wS, wG, inv_of (by decide +kernel), gs_of (by decide +kernel), by decide +kernel⟩, ⟨wS, wP, inv_of (by decide +kernel), reaches_of (by decide +kernel), by decide +kernel⟩,
   ⟨wS, wG, inv_of (by decide +kernel), reaches_of (by decide +kernel)⟩,
   ⟨{ wS with now := 1000000 }, wG, 32, inv_of (by decide +kernel), reaches_of (by decide +kernel), by decide +kernel⟩,
   ⟨wS, wG, 1, inv_of (by decide +kernel), gs_of (by decide +kernel), by decide⟩, ⟨wS, 0x70000000, inv_of (by decide +kernel), by decide +kernel⟩⟩

/-- Requests 1 and 2 of hearths 1 and 0 at target 5, the second promoted or not. -/
def wReq (i : Nat) (h : Hid) (p : Bool) : XReq := ⟨i, portOf h .gs, 5, 0x20000000, .read 4, 0, p, false, .far h i, none⟩
def grantableB (s : State) (a : List XReq) (r : XReq) : Bool :=
  decide (s.targetHeld r.target = false ∧ (∀ q ∈ a, ¬ (q.who.master = r.who.master ∧ q.who.hearth = r.who.hearth)) ∧ (∀ u : Fin 19, s.xb.busy[u] = none)
    ∧ s.lineWaits r = false)
theorem grantable_of {s : State} {a : List XReq} {r : XReq} (h : grantableB s a r = true) : s.Grantable a r := by
  simp only [grantableB, decide_eq_true_eq] at h
  exact ⟨h.1, fun q hq c => h.2.1 q hq ⟨c.1, c.2.1⟩, fun u b hb => by simp [h.2.2.1 u] at hb, h.2.2.2⟩
def wXb (p : Bool) : State := { wS with xb := { wS.xb with reqs := [wReq 1 1 false, wReq 2 0 p] }, now := 1000 }
theorem test_wit_grants : (∃ (s : State) (t : Fin 19) (a b : List XReq) (r : XReq), s.xb.busy[t] = none ∧ s.xb.reqs = a ++ r :: b ∧ r.target = t ∧
    (∀ q ∈ a ++ b, q.id ≠ r.id) ∧ s.Inv ∧ s.Grantable a r ∧ (r.promoted = true ∧ (∀ q ∈ a, q.target = t → q.promoted = false)))
  ∧ (∃ (s : State) (t : Fin 19) (a b : List XReq) (r : XReq), s.xb.busy[t] = none ∧ s.xb.reqs = a ++ r :: b ∧ r.target = t ∧
    (∀ q ∈ a ++ b, q.id ≠ r.id) ∧ s.Inv ∧ s.Grantable a r ∧ (∀ q ∈ a ++ b, q.target = t → q.promoted = false ∧ Yields q r))
  ∧ (∃ (s : State) (t : Fin 19) (r : XReq), s.xb.busy[t] = some r)
  ∧ (∃ (s : State) (t : Fin 19), s.targetHeld t = true)
  ∧ (∃ (s : State) (t : Fin 19), s.xb.busy[t] = none)
  ∧ (∃ (s : State) (a b : List XReq) (r : XReq), s.xb.reqs = a ++ r :: b ∧ fld (s.reg 0x40030014) 0 12 ≠ 0 ∧
    fld (s.reg 0x40030014) 0 12 ≤ (s.now - r.issued) * 3 / 10) :=
  ⟨⟨wXb true, 5, [wReq 1 1 false], [], wReq 2 0 true, by decide +kernel, rfl, rfl, by decide +kernel, inv_of (by decide +kernel), grantable_of (by decide +kernel), by decide +kernel⟩,
   ⟨wXb false, 5, [wReq 1 1 false], [], wReq 2 0 false, by decide +kernel, rfl, rfl, by decide +kernel, inv_of (by decide +kernel), grantable_of (by decide +kernel),
      by intro q hq _; simp only [List.append_nil, List.mem_singleton] at hq; subst hq; exact ⟨rfl, .inr ⟨rfl, 0, 1, rfl, rfl, by decide⟩⟩⟩,
   ⟨{ wS with xb := { wS.xb with busy := wS.xb.busy.set 5 (some (wReq 1 1 false)) } }, 5, wReq 1 1 false, by decide +kernel⟩,
   ⟨{ wS with pw := { wS.pw with ref := false } }, 15, by decide +kernel⟩, ⟨wS, 3, by decide +kernel⟩,
   ⟨{ wXb false with regs := [(0x40030014, 300)] }, [wReq 1 1 false], [], wReq 2 0 false, by decide +kernel⟩⟩

/-- A granted burst of hearth 0 at target 12, with its far access; one of the bellows. -/
def wBurst (op : XOp) : State :=
  { wH fun x => { x with far := [⟨5, .st, 0x3FFF, 0x213FFFFC, 0, .nowhere, .gs, none, .waiting⟩] } with
    xb := { wS.xb with busy := wS.xb.busy.set 12 (some ⟨6, wG, 12, 0x213FFFFC, op, 0, false, false, .far 0 5, none⟩) } }
theorem test_wit_bursts : (∀ op ∈ [XOp.write [1, 2, 3, 4], XOp.read 4], ∃ (s : State) (t : Fin 19) (r : XReq) (h : Hid) (f : FarOp) (k : Nat), s.xb.busy[t] = some r ∧ r.target = t ∧
    r.origin = .far h k ∧ (s.hearth h).far = [f] ∧ f.id = k ∧ r.who = portOf h f.mode ∧ targetOf s.remap r.addr = some t ∧ s.targetOff t = false ∧ s.Inv ∧ s.targetHeld t = false ∧ s.pw.ask = none ∧ FeltWord r.addr ∧ r.op = op)
  ∧ (∃ (s : State) (t : Fin 19) (r : XReq), s.xb.busy[t] = some r ∧ s.targetHeld t = true)
  ∧ (∃ (s : State) (m : Fin 15) (t : Fin 19) (r : XReq) (bs : List Byte), s.Inv ∧ s.xb.busy[t] = some r ∧ r.who.master = m ∧
    (∀ u : Fin 19, u ≠ t → s.xb.busy[u] = none) ∧ r.op = .write bs ∧ r.target = t ∧ 0x20000000 ≤ r.addr ∧
    r.addr + bs.length ≤ 0x21400000 ∧ (s.reg 0x40030024).getLsbD 31 = false ∧ m ≠ 9 ∧ m ≠ 10)
  ∧ (∃ (s : State) (t : Fin 19) (r : XReq) (bs : List Byte) (h : Hid) (k : Nat) (f : FarOp), s.Inv ∧ 5 ≤ t.val ∧ t.val ≤ 12 ∧ s.xb.busy[t] = some r ∧ r.op = .write bs ∧
    r.target = t ∧ 0x20000000 ≤ r.addr ∧ r.addr + bs.length ≤ 0x21400000 ∧ (s.reg 0x40030024).getLsbD 31 = false ∧
    r.origin = .far h k ∧ (s.hearth h).far = [f] ∧ f.id = k) :=
  ⟨by
    intro op hop
    simp only [List.mem_cons, List.not_mem_nil, or_false] at hop
    rcases hop with rfl | rfl <;>
      exact ⟨wBurst _, 12, ⟨6, wG, 12, 0x213FFFFC, _, 0, false, false, .far 0 5, none⟩, 0, ⟨5, .st, 0x3FFF, 0x213FFFFC, 0, .nowhere, .gs, none, .waiting⟩, 5,
        rfl, rfl, rfl, rfl, rfl, rfl, by decide +kernel, by decide +kernel, inv_of (by decide +kernel), by decide +kernel, rfl, by unfold FeltWord; decide +kernel, rfl⟩,
   ⟨(wBurst (.read 4)).setPw { wS.pw with st := 2 }, 12, ⟨6, wG, 12, 0x213FFFFC, .read 4, 0, false, false, .far 0 5, none⟩, by decide +kernel⟩,
   ⟨wBurst (.write [1, 2, 3, 4]), 1, 12, _, [1, 2, 3, 4], inv_of (by decide +kernel), rfl, by decide +kernel⟩,
   ⟨wBurst (.write [1, 2, 3, 4]), 12, _, [1, 2, 3, 4], 0, 5, _, inv_of (by decide +kernel), by decide, by decide, rfl, rfl, by decide, by decide, by decide, by decide, rfl, rfl, rfl⟩⟩


/-! ## Witnesses: the fulling unit, barriers, reductions (08, 09) -/

/-- A fulling request: its kind, number, NR, first and count, started or done, its lanes and status. -/
def wFq (k : FulKind) (num first count phase : Nat) (nr done : Bool) (lanes : List Int) : FulReq :=
  { id := 3, kind := k, nr := nr, first := first, count := count, scope := 0, fad := [], fav := [], fags := 0, faw := 0, faoe := 0, xu := false
    phase := phase, mat := [], map := (0, 0), num := num, next := count, lanes := lanes, halo := 0, remote := if k = .run 3 then 2 else 0, lost := false, status := 0, bad := false
    clamp := false, band := false, started := true, done := done }
/-- Hearth 0 with these fulling requests; and hearths 0 to 7. -/
def wFul (l : List FulReq) : State := wH fun x => { x with ful := l }
def wFul8 (l : List FulReq) : State := { wS with hearths := Vector.ofFn fun h : Hid => { wS.hearth h with ful := if h.val < 8 then l else [] } }

theorem test_wit_ful_triggers : (∃ (s : State) (h : Hid), s.FulRoom h false ∧ s.FulRoom h true)
    ∧ (∃ (s : State) (h : Hid) (t : Word), (s.hearth h).ful = [] ∧ (t.getLsbD 7 = true ∨ (s.hearth h).fulPend = false) ∧ (s.hearth h).nFrq < 12 ∧ (s.hearth h).ottUsed < 48)
    ∧ (∃ (s : State) (h : Hid) (t : Word) (a n : Nat), s.FulRoom h (t.getLsbD 7) ∧ fld t 0 2 ≤ 1 ∧ ((s.hearth h).rd 0x498).getLsbD 0 = true ∧
      a = fld ((s.hearth h).opnd 0x33) 0 9 ∧ n = fld ((s.hearth h).opnd 0x33) 16 10 ∧ n ≠ 0 ∧ a + n ≤ 512)
    ∧ (∃ (s : State) (h : Hid) (t : Word), 12 ≤ (s.hearth h).nFrq ∧ (s.hearth h).sb = [] ∧ (s.hearth h).sbNew = [] ∧ t = 0x80)
    ∧ ∃ (s : State) (h : Hid) (t : Word), (t.getLsbD 7 = false ∧ (s.hearth h).fulPend = true) ∧ (s.hearth h).sb = [] ∧ (s.hearth h).sbNew = [] :=
  ⟨⟨wFul [wFq (.run 0) 0 0 1 0 true false []], 0, ⟨⟨_, _, rfl, rfl⟩, by decide +kernel⟩, ⟨⟨_, _, rfl, rfl⟩, by decide +kernel⟩⟩,
   ⟨wS, 0, 0, by decide +kernel⟩,
   ⟨(wFul [wFq (.run 0) 0 0 1 0 true false []]).modHearth 0 fun x => { x with op := x.op.set 11 0x00010000 }, 0, 1, 0, 1,
      ⟨⟨_, _, rfl, rfl⟩, by decide +kernel⟩, by decide +kernel⟩,
   ⟨wFul (List.replicate 12 (wFq (.run 0) 0 0 1 0 true false [])), 0, 0x80, by decide +kernel⟩, ⟨wH fun x => { x with fulPend := true }, 0, 0, by decide +kernel⟩⟩

/-- FK0 over one cell; the cell 5 with all faces unconnected to others, and frozen. -/
def wFk (fl : Byte) : State :=
  ((wH fun x => { x with op := x.op.set 11 0x00010005 }).setBytes (feltKey 0 (64 * 5)) [9, 0, 8, 0]).setByte (feltKey 0 (64 * 5 + 0x2D)) fl
theorem test_wit_kernel_zero : (∃ (s : State) (h : Hid) (c : Nat), s.Inv ∧ (s.hearth h).ful = [] ∧ (s.hearth h).fulPend = false ∧ (s.hearth h).ottUsed < 48 ∧ s.stackRuns (stackOf h) = true ∧ (s.hearth h).fnsLate = [] ∧ s.portNow h = [] ∧
      c = fld ((s.hearth h).opnd 0x33) 0 12 ∧ fld ((s.hearth h).opnd 0x33) 16 13 = 1 ∧ s.cellBad h c = false ∧ (s.byte (feltKey h (64 * c + 0x2D))).toNat % 2 = 0 ∧
      (s.byte (feltKey h (64 * c + 0x2D))).toNat / 8 % 2 = 0 ∧
      (∀ f < 6, s.rd16 (feltKey h (64 * c + 0x20 + 2 * f)) / 8192 = 0 ∨ s.rd16 (feltKey h (64 * c + 0x20 + 2 * f)) % 8192 = 8191))
    ∧ ∃ (s : State) (h : Hid) (c : Nat), s.Inv ∧ (s.hearth h).ful = [] ∧ (s.hearth h).fulPend = false ∧ (s.hearth h).ottUsed < 48 ∧ s.stackRuns (stackOf h) = true ∧ (s.hearth h).fnsLate = [] ∧ s.portNow h = [] ∧
      c = fld ((s.hearth h).opnd 0x33) 0 12 ∧ fld ((s.hearth h).opnd 0x33) 16 13 = 1 ∧ (s.byte (feltKey h (64 * c + 0x2D))).toNat / 8 % 2 = 1 :=
  ⟨⟨wFk 0, 0, 5, inv_of (by decide +kernel), by decide +kernel⟩, ⟨wFk 8, 0, 5, inv_of (by decide +kernel), by decide +kernel⟩⟩

/-- A halo entry for hearth 63. -/
def wHalo : State := { wS with felt := { State.reset.felt with items := [⟨7, 8, 63, 5, [1, 2, 3, 4, 5, 6, 7, 8], 500⟩, ⟨0, 9, 63, 2047, [1, 2, 3, 4, 5, 6, 7, 65535], 400⟩] } }
theorem test_wit_ful_ends : (∀ nr, ∃ (s : State) (h : Hid) (q : FulReq), (s.hearth h).ful = [q] ∧ q.done = true ∧ s.stackRuns (stackOf h) = true ∧ (s.hearth h).fnsLate = [] ∧ q.kind ≠ .run 4 ∧ q.nr = nr)
    ∧ (∃ (s : State) (h : Hid) (q : FulReq), s.Inv ∧ (s.hearth h).ful = [q] ∧ q.done = true ∧ s.stackRuns (stackOf h) = true ∧ q.kind = .run 4 ∧ q.status = 0 ∧ q.count ≠ 0 ∧
      q.lanes.length = 512 ∧ (∀ x ∈ q.lanes, -(2 ^ 63) ≤ x ∧ x < 2 ^ 63))
    ∧ ∃ (s : State) (h : Hid) (a b : List HaloItem) (i : HaloItem), s.Inv ∧ s.felt.items = a ++ i :: b ∧ i ∉ a ∧ (∀ j ∈ a ++ b, j.dst = h → haloBefore i j = true) ∧ i.dst = h ∧ i.hslot < 2048 ∧
      s.stackRuns (stackOf h) = true ∧ s.portNow h = [] ∧ i.data.length = 8 ∧ (∀ x ∈ i.data, x < 65536) ∧ (∀ q ∈ (s.hearth i.src).ful, q.id ≠ i.req) :=
  ⟨fun nr => ⟨wFul [wFq (.run 0) 0 0 1 0 nr true []], 0, wFq (.run 0) 0 0 1 0 nr true [], rfl, rfl, by decide +kernel +revert, rfl, by simp [wFq], rfl⟩,
   ⟨wFul [wFq (.run 4) 0 0 1 0 true true (List.replicate 512 (2 ^ 63 - 1))], 0, _, inv_of (by decide +kernel), rfl, rfl, by decide +kernel, rfl, rfl, by decide, by decide +kernel, by decide +kernel⟩,
   ⟨wHalo, 63, [⟨7, 8, 63, 5, [1, 2, 3, 4, 5, 6, 7, 8], 500⟩], [], ⟨0, 9, 63, 2047, [1, 2, 3, 4, 5, 6, 7, 65535], 400⟩, inv_of (by decide +kernel), rfl, by decide +kernel⟩⟩

/-- Every running hearth at a SYNC of the device; hearth 8 not yet. -/
def wSync : State := { wS with hearths := Vector.replicate 64 { Hearth.reset with run := .running, wait := .sync .device, arr0 := some .device } }
theorem test_wit_barriers : (∃ (s : State) (scope : SyncScope) (k : Fin 8), scope ≠ .neighbourhood ∧ (∀ j : Fin 8, s.stackRuns j = true) ∧
      (∀ h ∈ s.atSync scope k, (s.hearth h).wait = .sync scope) ∧ s.atSync scope k ≠ [] ∧ ∀ h, ¬ s.missing scope k h)
    ∧ (∃ (s : State) (scope : SyncScope) (k : Fin 8) (h : Hid), scope ≠ .neighbourhood ∧ (∀ j : Fin 8, s.stackRuns j = true) ∧
      (∀ h ∈ s.atSync scope k, (s.hearth h).wait = .sync scope) ∧ s.missing scope k h)
    ∧ ∃ (s : State) (k : Fin 8) (ps : List Hid), s.Inv ∧ s.stackRuns k = true ∧ ps = ((List.finRange 64).filter (fun h => h.val / 8 == k.val)).filter
        (fun h => ((s.hearth h).rd 0x460).getLsbD 8 && (s.hearth h).run == .running) ∧ ps ≠ [] ∧
      (∀ h ∈ ps, ∃ q r, (s.hearth h).ful = q :: r ∧ q.started = true ∧ q.done = false ∧ q.phase = 3 ∧ q.scope = 0) ∧
      (∀ h : Hid, h.val / 8 = k.val → h ∉ ps → (s.hearth h).ful = []) :=
  ⟨⟨wSync, .device, 0, by decide, by decide +kernel, by decide +kernel, by decide +kernel, fun h hm => absurd hm.2.2.2 (by
      have : ∀ h : Hid, (wSync.hearth h).arr0 = some .device := by decide +kernel
      simp [this h])⟩,
   ⟨wSync.modHearth 8 fun x => { x with arr0 := none }, .device, 0, 8, by decide, by decide +kernel, by decide +kernel,
      ⟨fun h => by simp at h, by decide +kernel, by decide +kernel, by decide +kernel⟩⟩,
   ⟨wFul8 [wFq (.step 1) 0 0 0 3 true false []], 0, _, inv_of (by decide +kernel), by decide +kernel, rfl, by decide +kernel, by
      have hp : ((List.finRange 64).filter (fun h => h.val / 8 == (0 : Fin 8).val)).filter (fun h =>
          (((wFul8 [wFq (.step 1) 0 0 0 3 true false []]).hearth h).rd 0x460).getLsbD 8 && ((wFul8 [wFq (.step 1) 0 0 0 3 true false []]).hearth h).run == .running)
          = [0, 1, 2, 3, 4, 5, 6, 7] := by decide +kernel
      intro h hh
      rw [hp] at hh
      have ha : ∀ h ∈ ([0, 1, 2, 3, 4, 5, 6, 7] : List Hid), ((wFul8 [wFq (.step 1) 0 0 0 3 true false []]).hearth h).ful = [wFq (.step 1) 0 0 0 3 true false []] := by
        decide +kernel
      exact ⟨_, [], ha h hh, rfl, rfl, rfl, rfl⟩, by decide +kernel⟩⟩

/-- FRTO is 1 us; the tokens of SYNC left at 0; of the two entries of a halo request the frames left at 0. -/
def wFrto (now : Nat) : State :=
  { wH fun x => { x with arr0 := some .neighbourhood, cr := [(0x45C, 1)] } with now := now, felt := { State.reset.felt with sent := [(0, 0)] } }
def wFrtoHalo : State :=
  { wH fun x => { x with ful := [wFq (.run 3) 0 0 1 0 true false []], cr := [(0x45C, 1)] } with
    now := 1000, lk := { wS.lk with tags := [(0, .halo 0 1, 0), (5, .halo 0 2, 0), (6, .far 0 2, 0)] } }
theorem test_wit_frto : (∃ (s : State) (h : Hid), s.Inv ∧ (s.hearth h).arr0 = some .neighbourhood ∧ (s.hearth h).arrLost = false ∧ s.stackRuns (stackOf h) = true ∧
      ∃ t0, (0, t0) ∈ s.felt.sent ∧ t0 + 1000 * fld ((s.hearth h).rd 0x45C) 0 16 ≤ s.now)
    ∧ (∃ (s : State) (h : Hid), s.Inv ∧ (s.hearth h).arr0 = some .neighbourhood ∧ (s.hearth h).arrLost = false ∧ s.stackRuns (stackOf h) = true ∧
      ∀ n ∈ s.felt.sent, n.1 = 0 → s.now < n.2 + 1000 * fld ((s.hearth h).rd 0x45C) 0 16)
    ∧ ∃ (s : State) (h : Hid) (q : FulReq), s.Inv ∧ (s.hearth h).arr0 = none ∧ (s.hearth h).ful = [q] ∧ q.started = true ∧ q.done = false ∧
      s.stackRuns (stackOf h) = true ∧ q.kind = .run 3 ∧ q.phase = 0 ∧ q.remote ≠ 0 ∧ q.halo = 0 ∧ q.count ≤ q.next ∧ q.status = 0 ∧
      (∀ t ∈ s.lk.tags, t.2.2 + 1000 * fld ((s.hearth h).rd 0x45C) 0 16 ≤ s.now) ∧
      (s.lk.tags.filter (fun t => match t.2.1 with
        | .halo g _ => g == h
        | _ => false)).length = q.remote :=
  ⟨⟨wFrto 1000, 0, inv_of (by decide +kernel), by decide +kernel, by decide +kernel, by decide +kernel, 0, by decide +kernel⟩,
   ⟨wFrto 999, 0, inv_of (by decide +kernel), by decide +kernel⟩,
   ⟨wFrtoHalo, 0, wFq (.run 3) 0 0 1 0 true false [], inv_of (by decide +kernel), by decide +kernel⟩⟩

/-- Round 1 of the reduction of lane 511 in stack 0, with every hearth's share there. -/
def wRed : State := wFul8 [wFq .red 1 511 1 0 true false [7]]
/-- The same of the device: every hearth's share. -/
def wRedD : State := { wS with hearths := Vector.ofFn fun h : Hid => { wS.hearth h with ful := [{ wFq .red 1 511 1 0 true false [7] with scope := 1 }] } }
theorem test_wit_reduction : (∃ (s : State) (k : Fin 8) (ps : List Hid), s.Inv ∧ s.stackRuns k = true ∧
    ps = ((List.finRange 64).filter (fun h => false || h.val / 8 == k.val)).filter (fun h => ((s.hearth h).rd 0x498).getLsbD 0) ∧ ps ≠ [] ∧
    (∀ h, ((s.hearth h).redAt 1).all (fun q => q.scope == 0) = true) ∧
    (∀ h : Hid, h.val / 8 = k.val → h ∉ ps → (s.hearth h).redOld = [] ∧ (s.hearth h).ful = []) ∧
    (∀ h ∈ ps, (s.hearth h).redOld = [] ∧ (s.hearth h).ful = [wFq .red 1 511 1 0 true false [7]]))
  ∧ ∃ (s : State) (ps : List Hid), s.Inv ∧ (∀ j : Fin 8, s.stackRuns j = true) ∧
    ps = ((List.finRange 64).filter (fun h => true || h.val / 8 == (0 : Fin 8).val)).filter (fun h => ((s.hearth h).rd 0x498).getLsbD 0) ∧ ps ≠ [] ∧ (∀ h : Hid, h ∈ ps) ∧
    (∀ h ∈ ps, (s.hearth h).redOld = [] ∧ (s.hearth h).ful = [{ wFq .red 1 511 1 0 true false [7] with scope := 1 }]) :=
  ⟨⟨wRed, 0, _, inv_of (by decide +kernel), by decide +kernel, rfl, by decide +kernel⟩,
   ⟨wRedD, _, inv_of (by decide +kernel), by decide +kernel, rfl, by decide +kernel⟩⟩

/-! ## Witnesses: draughts, epochs, slices, fabric (07, 10) -/

/-- Draught G or P enabled, counting `to` us since 0, at `now`, with its state changed. -/
def wDg (d : Draught) (regs : List (Nat × Word)) (now : Nat) (x : Dgt) : State :=
  { (wH fun y => { y with gsh := true }) with
    regs := (dgBase d, 1) :: regs.map (fun r => (dgBase d + r.1, r.2)), now := now, dg := State.reset.dg.set (dgIx d) x }
theorem test_wit_draught_keys : (∃ (s : State) (w : Who) (h : Hid), s.ReachesGs w (0x50000000 + h.val * 0x800 + 0x10C))
    ∧ (∃ (s : State) (w : Who) (d : Draught), s.Inv ∧ s.ReachesGs w (dgBase d + 0x10) ∧ (s.reg (dgBase d)).getLsbD 0 = true ∧ (s.dg[dgIx d]).exp = none ∧
        (s.dg[dgIx d]).key = true ∧ ∃ t, (s.dg[dgIx d]).prev = some t ∧ fld (s.reg (dgBase d + 8)) 0 24 * 1000 ≤ s.now - t)
    ∧ (∃ (s : State) (w : Who) (d : Draught) (x : Word), s.Inv ∧ s.ReachesGs w (dgBase d + 0x10) ∧ (s.reg (dgBase d)).getLsbD 0 = true ∧ (s.dg[dgIx d]).exp = none ∧
        fld x 0 8 ≠ 0x3C ∧ (fld x 0 8 ≠ 0xC3 ∨ (s.dg[dgIx d]).key = false))
    ∧ ∃ (s : State) (w : Who) (d : Draught) (t : Nat), s.Inv ∧ s.ReachesGs w (dgBase d + 0x10) ∧ (s.reg (dgBase d)).getLsbD 0 = true ∧ (s.dg[dgIx d]).exp = none ∧
        (s.dg[dgIx d]).key = true ∧ (s.dg[dgIx d]).prev = some t ∧ s.now - t < fld (s.reg (dgBase d + 8)) 0 24 * 1000 :=
  ⟨⟨wS, wG, 63, gs_of (by decide +kernel)⟩,
   ⟨wDg .p [(4, 9), (8, 5)] 5000 ⟨0, 9, true, some 0, none, false, none⟩, wG, .p, inv_of (by decide +kernel), gs_of (by decide +kernel), by decide +kernel, by decide +kernel,
      by decide +kernel, 0, by decide +kernel⟩,
   ⟨wDg .g [(4, 9), (8, 5)] 5000 ⟨0, 9, false, some 0, none, false, none⟩, wG, .g, 0xC3, inv_of (by decide +kernel), gs_of (by decide +kernel), by decide +kernel⟩,
   ⟨wDg .g [(4, 9), (8, 5)] 4999 ⟨0, 9, true, some 0, none, false, none⟩, wG, .g, 0, inv_of (by decide +kernel), gs_of (by decide +kernel), by decide +kernel⟩⟩

theorem test_wit_draught_counts : (∃ (s : State) (d : Draught) (n : Nat), s.Inv ∧ (s.reg (dgBase d)).getLsbD 0 = true ∧ s.pw.st = 0 ∧ (s.dg[dgIx d]).exp = none ∧
      n = fld (s.reg (dgBase d + 0xC)) 0 24 ∧ n ≠ 0 ∧ s.dgCount d ≤ n ∧ (s.dg[dgIx d]).warned = false)
    ∧ ∃ (s : State) (d : Draught) (h : Hid), s.Inv ∧ (s.reg (dgBase d)).getLsbD 0 = true ∧ s.pw.st = 0 ∧ (s.dg[dgIx d]).exp = none ∧ s.dgCount d = 0 ∧
      d = .p ∧ (s.reg (dgBase .p)).getLsbD 2 = false ∧ (s.hearth h).gsh = true :=
  ⟨⟨wDg .g [(4, 9), (0xC, 4)] 5000 ⟨0, 9, false, none, none, false, none⟩, .g, 4, inv_of (by decide +kernel), by decide +kernel⟩,
   ⟨wDg .p [(4, 9), (0xC, 4)] 9000 ⟨0, 9, false, none, none, true, none⟩, .p, 0, inv_of (by decide +kernel), by decide +kernel⟩⟩

/-- Epoch 4 of 1000 us since 0, with controller state and disciplined time changed. -/
def wEp (f : Ep → Ep) (td : Nat) : State :=
  { wS with
    ep := f { Ep.reset with started := true, cur := 4, per := 1000, edl := 900, pgC := some 3, pgC1 := some 2, epdlGone := true, ecmt := 1, part := 3 }
    td := td, regs := [(0x40040000, 1), (0x40040004, 1000)] }
theorem test_wit_tick_edges : (∃ s : State, s.Inv ∧ s.ep.started = true ∧ s.pw.st < 2 ∧ s.ep.edge + s.ep.per * 1000 ≤ s.td ∧ s.ep.epdlGone = true ∧ s.dm.vec = none ∧ s.afe.edge = false ∧
      s.ep.copies = [] ∧ s.ep.resync = none ∧ s.ep.heldSeal = none ∧ s.ep.step = none ∧ (s.reg 0x40040000).getLsbD 2 = false ∧ (s.reg 0x400B003C).getLsbD 0 = false)
    ∧ (∃ s : State, s.Inv ∧ s.ep.started = false ∧ (s.reg 0x40040000).getLsbD 0 = true ∧ (s.reg 0x40040000).getLsbD 2 = false ∧
      s.ep.per ≠ 0 ∧ s.pw.st < 2 ∧ s.ep.step = none)
    ∧ (∃ (s : State) (k : Fin 8) (h g i : Hid), s.Inv ∧ s.stackRuns k = true ∧ s.ep.started = true ∧ (s.stks[k]).epoch ≠ s.ep.cur ∧ (s.stks[k]).due = false ∧
      h.val / 8 = k.val ∧ (s.hearth h).wait ≠ .epwait ∧ g.val / 8 = k.val ∧ (s.hearth g).wait = .epwait ∧ (s.hearth g).run = .running ∧ (s.hearth g).entry = none ∧
      i.val / 8 = k.val ∧ (s.hearth i).entry.isSome = true)
    ∧ ∃ (s : State) (k : Fin 8) (h : Hid), s.Inv ∧ s.stackRuns k = true ∧ s.ep.started = true ∧ (s.stks[k]).epoch ≠ s.ep.cur ∧ (s.stks[k]).due = true ∧
      h.val / 8 = k.val ∧ (s.hearth h).wait ≠ .epwait :=
  ⟨⟨wEp id 1000000, inv_of (by decide +kernel), by decide +kernel⟩, ⟨wEp (fun e => { e with started := false }) 7, inv_of (by decide +kernel), by decide +kernel⟩,
   ⟨((wEp id 5).modHearth 7 fun x => { x with wait := .epwait, cr := [(0x04C, 0x80000004)] }).modHearth 6
      fun x => { x with wait := .epwait, entry := some ⟨.far, 9, 0, 0, false, 0, false⟩ }, 0, 0, 7, 6, inv_of (by decide +kernel), by decide +kernel⟩,
   ⟨(wEp id 5).setStack 7 { (wEp id 5).stack 7 with due := true }, 7, 63, inv_of (by decide +kernel), by decide +kernel⟩⟩

theorem test_wit_commits : (∃ (s : State) (h : Hid) (n : Nat), s.Inv ∧ (s.hearth h).report = some n ∧ s.ep.started = true ∧ n = s.ep.cur ∧
      s.td - s.ep.edge ≤ s.ep.edl * 1000 ∧ (s.reg 0x40040000).getLsbD 2 = false)
    ∧ (∃ (s : State) (h : Hid) (n : Nat), s.Inv ∧ (s.hearth h).report = some n ∧ n ≠ s.ep.cur)
    ∧ (∃ (s : State) (h : Hid), s.Inv ∧ (s.hearth h).wait = .commit ∧ (s.hearth h).report = none ∧ (s.hearth h).cmtPend = true ∧ (s.hearth h).cmtEdge = false)
    ∧ (∃ (s : State) (h : Hid), s.Inv ∧ (s.hearth h).wait = .none ∧ (s.hearth h).cmtPend = true ∧ (s.hearth h).report = none ∧ (s.hearth h).cmtEdge = true)
    ∧ ∃ (s : State) (h : Hid) (n : Nat) (f : Fin 3), s.Inv ∧ s.ep.gate = true ∧ s.ep.copies.find? (fun c => c.1.val / 8 == h.val / 8) = some (h, n) ∧
      (s.ep.maps[h]).fill = some f ∧ s.xb.busy[(3 : Fin 19)] = none :=
  ⟨⟨(wEp id 900000).modHearth 63 fun x => { x with report := some 4 }, 63, 4, inv_of (by decide +kernel), by decide +kernel⟩,
   ⟨(wEp id 900000).modHearth 63 fun x => { x with report := some 3 }, 63, 3, inv_of (by decide +kernel), by decide +kernel⟩,
   ⟨wH fun x => { x with wait := .commit, cmtPend := true }, 0, inv_of (by decide +kernel), by decide +kernel⟩,
   ⟨wH fun x => { x with cmtPend := true, cmtEdge := true }, 0, inv_of (by decide +kernel), by decide +kernel⟩,
   ⟨wEp (fun e => { e with gate := true, copies := [(8, 4), (63, 4)], maps := Vector.replicate 64 ⟨none, none, none, none, none, some 2⟩ }) 5, 63, 4, 2,
      inv_of (by decide +kernel), by decide +kernel⟩⟩

/-- An epoch not settled; the device as origin or member of a fabric. -/
def wDec : EpDec := ⟨4, 0, 500, 600, 0x10, none, [], [], false, false, false, false⟩
def wFab (r : Word) (f : Ep → Ep) (td : Nat) : State := { wEp f td with regs := [(0x40040000, r), (0x40040004, 1000), (0x40080040, 1), (0x40080048, 7)] }
theorem test_wit_deadlines : (∃ (s : State) (x : Seal), s.Inv ∧ s.ep.heldSeal = some x ∧ s.ep.cur = x.epoch + 1 ∧ s.ep.pgC = some x.epoch ∧
      (∀ h : Hid, ((s.ep.maps[h]).c).isSome = true))
    ∧ (∃ (s : State) (d : EpDec) (r : List EpDec), s.Inv ∧ s.ep.started = true ∧ s.ep.epdlGone = false ∧ s.ep.edl * 1000 ≤ s.td - s.ep.edge ∧ s.ep.gate = false ∧
      s.ep.dec = d :: r ∧ d.epoch = s.ep.cur ∧ d.own = none ∧ d.ents = [] ∧ (s.reg 0x40040000).getLsbD 2 = false)
    ∧ (∃ (s : State) (d : EpDec), s.ep.dec = [d] ∧ d.fdlGone = false ∧ d.edge + d.fdl ≤ s.td ∧ d.ents = [] ∧ d.own = none ∧ d.tree = 0x10 ∧ d.acked = [])
    ∧ (∃ (s : State) (d : EpDec), s.Inv ∧ s.ep.dec = [d] ∧ (s.reg 0x40040000).getLsbD 1 = true ∧ (s.reg 0x40040000).getLsbD 2 = true ∧
      d.sealed = false ∧ d.fdlGone = true ∧ d.edge + d.sdl ≤ s.td ∧ d.epoch = s.ep.cur)
    ∧ ∃ (s : State), s.Inv ∧ (s.reg 0x40040000).getLsbD 1 = false ∧ (s.reg 0x40040000).getLsbD 2 = true ∧ s.ep.started = true ∧ 4 ≤ s.ep.noToken ∧ s.ep.mlost = false :=
  ⟨⟨wEp (fun e => { e with heldSeal := some ⟨3, [⟨5, true, false⟩], false⟩, maps := Vector.replicate 64 ⟨some 0, none, none, none, none, some 1⟩ }) 5, _,
      inv_of (by decide +kernel), rfl, by decide +kernel⟩,
   ⟨wEp (fun e => { e with epdlGone := false, gate := false, dec := [wDec] }) 900000, wDec, [], inv_of (by decide +kernel), by decide +kernel⟩,
   ⟨wFab 7 (fun e => { e with dec := [wDec] }) 500, wDec, by decide +kernel⟩,
   ⟨wFab 7 (fun e => { e with dec := [{ wDec with fdlGone := true }] }) 600, { wDec with fdlGone := true }, inv_of (by decide +kernel), by decide +kernel⟩,
   ⟨wFab 5 (fun e => { e with noToken := 4 }) 600, inv_of (by decide +kernel), by decide +kernel⟩⟩

/-- Port 0 UP, changed. -/
def wPort (f : Port → Port) (s : State) : State := { s with lk := { s.lk with ports := s.lk.ports.set 0 (f { Port.reset with state := 4 }) } }
theorem test_wit_exchange : ∀ l ∈ [[], [0, 1000000, 1000100, 500]], ∃ (s : State) (p : Fin 4), s.Inv ∧ (s.reg 0x40040000).getLsbD 1 = false ∧ (s.reg 0x40040000).getLsbD 2 = true ∧
    fld s.ep.tree 0 3 = p.val ∧ s.portState p = 4 ∧ s.lk.ports[p].stamps = l ∧
    (l ≠ [] → 50000 < (offsetOf 0 1000000 1000100 500).natAbs) := by
  intro l hl
  simp only [List.mem_cons, List.not_mem_nil, or_false] at hl
  rcases hl with rfl | rfl
  · exact ⟨wPort (fun x => { x with stamps := [] }) (wFab 5 id 5), 0, inv_of (by decide +kernel), by decide +kernel⟩
  · exact ⟨wPort (fun x => { x with stamps := [0, 1000000, 1000100, 500] }) (wFab 5 id 5), 0, inv_of (by decide +kernel), by decide +kernel⟩


/-! ## Witnesses: damper, firing scheduler (11) -/

/-- Words of the active damper set over a valid set without limits; the firing island changed. -/
def wTab (l : List (Nat × Word)) (s : State) : State :=
  (((0x990, 0x010100E6) :: (0x994, 0x00000101) :: l)).foldl (fun s p => s.wr32 (0x40051000 + p.1) p.2) s
def wDm (f : Damper → Damper) (now : Nat) (s : State) : State := { s with dm := f s.dm, now := now }
/-- Output 5 in MODE `m` on phase 0, group 0, 10 A; unmasked. -/
def wOutp (m : Nat) (f : Outp → Outp) (s : State) : State :=
  wDm (fun d => { d with out := (Vector.replicate 96 { Outp.reset with mask := 0 }).set 5 (f { Outp.reset with mask := 0 }) }) s.now
    (wTab [(0x50, 1000), (0x54, 100 * 0x10000), (0x58, BitVec.ofNat 32 (m * 0x10000 + 0xF000))] s)

theorem test_wit_causes : (∃ s : State, s.Inv) ∧ (∃ s : State, s.dm.pin = false ∧ s.dm.pinAt + 10000 ≤ s.dnow) ∧ (∃ s : State, s.dm.bow = false ∧ s.dm.bowAt + 100000 ≤ s.dnow)
    ∧ (∃ (s : State) (p : Fin 3) (t : Nat), s.Inv ∧ (s.dm.ph[p]).ovl = some t ∧ t + 1000 < s.dnow)
    ∧ (∃ (s : State) (g : Fin 16), s.Inv ∧ s.ewin g ≠ 0 ∧ s.ebud g * 1000 < s.groupEn g / 10000000)
    ∧ (∃ (s : State) (g : Fin 16), s.ewin g ≠ 0 ∧ s.dm.gwin[g] + s.ewin g * 1000000000 ≤ s.dnow)
    ∧ ∃ (s : State) (o : Fin 96) (m : Nat), s.Inv ∧ s.oMode o ≠ 0 ∧ s.maxon o = some m ∧ m < s.con o ∧ (s.dm.out[o]).mask = 0 :=
  ⟨⟨wS, inv_of (by decide +kernel)⟩, ⟨{ wS with now := 10000 }, by decide +kernel⟩, ⟨{ wS with now := 100000 }, by decide +kernel⟩,
   ⟨wDm (fun d => { d with ph := d.ph.set 2 { PhaseSt.reset with ovl := some 0 } }) 1001 wS, 2, 0, inv_of (by decide +kernel), by decide +kernel⟩,
   ⟨wDm (fun d => { d with en := d.en.set 15 10010000000 }) 0 (wTab [(0x978, 1), (0x97C, 1)] wS), 15, inv_of (by decide +kernel), by decide +kernel⟩,
   ⟨{ wTab [(0x97C, 1)] wS with now := 1000000000 }, 15, by decide +kernel⟩,
   ⟨wTab [(0x50, 0x000103E8)] { wOutp 1 (fun x => { x with win := some (0, none) }) wS with now := 1000001 }, 5, 1000000, inv_of (by decide +kernel), by decide +kernel⟩⟩

/-- Channel 47 enabled with limits -1 and 1 for group 0, and a code on its way to the damper. -/
def wCh (x : BitVec 24) : State := { wTab [(0x8F0, 0xFFFFFF), (0x8F4, 0x80000001), (0x8F8, 1)] wS with afe := { Afe.reset with sent := [(0, 0), (47, x)] } }
theorem test_wit_codes : (∃ (s : State) (c : Fin 48) (x : BitVec 24) (a b : List (Fin 48 × BitVec 24)), s.Inv ∧ s.afe.sent = a ++ (c, x) :: b ∧ (∀ y ∈ a, y.1 ≠ c) ∧
      s.chEn c = true ∧ (x.toInt < s.chLo c ∨ s.chHi c < x.toInt))
    ∧ (∃ (s : State) (c : Fin 48) (x : BitVec 24) (a b : List (Fin 48 × BitVec 24)), s.Inv ∧ s.afe.sent = a ++ (c, x) :: b ∧ (∀ y ∈ a, y.1 ≠ c) ∧
      s.chEn c = true ∧ s.chLo c ≤ x.toInt ∧ x.toInt ≤ s.chHi c ∧ s.dm.good.getLsbD c.val = true)
    ∧ (∃ (s : State) (c : Fin 48), s.Inv ∧ s.chEn c = true ∧ (∀ d : Fin 48, (s.afe.ch[d]).wr = none) ∧ s.dm.chAt[c] + 2 * Int.ofNat (s.chPeriod c) ≤ Int.ofNat s.dnow)
    ∧ ∃ (s : State) (w : Who) (k : Fin 3), s.Inv ∧ s.ReachesGs w (0x40050020 + 4 * k.val) ∧ (s.carried w).hearth.isSome = true :=
  ⟨⟨wCh 2, 47, 2, [(0, 0)], [], inv_of (by decide +kernel), rfl, by simp, by decide +kernel⟩,
   ⟨wDm (fun d => { d with good := ~~~0 }) 0 (wCh 0xFFFFFF), 47, 0xFFFFFF, [(0, 0)], [], inv_of (by decide +kernel), rfl, by simp, by decide +kernel⟩,
   ⟨{ wCh 0 with now := 2000000 }, 47, inv_of (by decide +kernel), by decide +kernel⟩, ⟨wS, wG, 2, inv_of (by decide +kernel), gs_of (by decide +kernel), by decide⟩⟩

theorem test_wit_clear_send : (∃ (s : State) (w : Who) (k : Fin 3) (x : Word) (o : Fin 96), s.Inv ∧ s.ReachesGs w (0x40050030 + 4 * k.val) ∧ (s.carried w).hearth.isSome = true ∧
      o.val / 32 = k.val ∧ x.getLsbD (o.val % 32) = true ∧ (s.dm.out[o]).mask ≠ 0)
    ∧ ∃ (s : State) (w : Who) (p : Fin 4), s.ReachesGs w 0x40050060 ∧ (s.carried w).hearth.isSome = true ∧ s.portState p = 4 ∧
      s.lk.ports[p].queue = [] ∧ s.lk.ports[p].replay.length < 64 ∧ s.lk.ports[p].busy ≤ s.now :=
  ⟨⟨wS, wG, 2, 0x80000000, 95, inv_of (by decide +kernel), gs_of (by decide +kernel), by decide +kernel⟩,
   ⟨wPort id (wFab 5 id 0), wG, 0, gs_of (by decide +kernel), by decide +kernel⟩⟩

/-- An edit with its first key from hearth `h` at 0. -/
def wKey (k : Option (Hid × Nat)) (now : Nat) (s : State) : State := wDm (fun d => { d with key := k }) now s
theorem test_wit_keys : (∃ (s : State) (w : Who) (h : Hid), s.Inv ∧ s.ReachesGs w 0x40050050 ∧ (s.carried w).hearth = some h ∧ (s.reg 0x40050054).getLsbD 0 = false ∧ s.dm.key = none)
    ∧ (∃ (s : State) (w : Who) (h k : Hid) (t : Nat), s.Inv ∧ s.ReachesGs w 0x40050050 ∧ (s.carried w).hearth = some h ∧ (s.reg 0x40050054).getLsbD 0 = false ∧
      s.dm.key = some (k, t) ∧ s.dnow ≤ t + 1000000 ∧ k ≠ h ∧ s.editOk = true)
    ∧ (∃ (s : State) (w : Who) (h k : Hid) (t : Nat), s.Inv ∧ s.ReachesGs w 0x40050050 ∧ (s.carried w).hearth = some h ∧ (s.reg 0x40050054).getLsbD 0 = false ∧
      s.dm.key = some (k, t) ∧ s.dnow ≤ t + 1000000 ∧ k ≠ h ∧ s.editOk = false)
    ∧ (∃ (s : State) (w : Who) (h k : Hid) (t : Nat), s.Inv ∧ s.ReachesGs w 0x40050050 ∧ (s.carried w).hearth = some h ∧ (s.reg 0x40050054).getLsbD 0 = false ∧
      s.dm.key = some (k, t) ∧ s.dnow ≤ t + 1000000 ∧ k = h)
    ∧ ∃ (s : State) (h : Hid) (t : Nat), s.Inv ∧ s.dm.key = some (h, t) ∧ t + 1000000 ≤ s.dnow :=
  ⟨⟨wS, wG, 0, inv_of (by decide +kernel), gs_of (by decide +kernel), by decide +kernel⟩,
   ⟨wKey (some (1, 0)) 999999 (wTab [] wS), wG, 0, 1, 0, inv_of (by decide +kernel), gs_of (by decide +kernel), by decide +kernel⟩,
   ⟨wKey (some (1, 0)) 999999 wS, wG, 0, 1, 0, inv_of (by decide +kernel), gs_of (by decide +kernel), by decide +kernel⟩,
   ⟨wKey (some (0, 0)) 999999 wS, wG, 0, 0, 0, inv_of (by decide +kernel), gs_of (by decide +kernel), by decide +kernel⟩,
   ⟨wKey (some (0, 0)) 1000000 wS, 0, 0, inv_of (by decide +kernel), by decide +kernel⟩⟩

theorem test_wit_demands : (∃ (s : State) (w : Who) (o : Fin 96), s.Inv ∧ s.Reaches w (0x40060100 + 4 * o.val) true ∧ (s.carried w).hearth = some (s.oOwner o) ∧
      w.master.val = 1 + (s.oOwner o).val / 8 ∧ s.ep.ecmt.getLsbD (s.oOwner o).val = false)
    ∧ (∃ (s : State) (w : Who) (o : Fin 96), s.Inv ∧ s.Reaches w (0x40060100 + 4 * o.val) true ∧ (s.carried w).hearth ≠ some (s.oOwner o))
    ∧ (∃ (s : State) (w : Who) (o : Fin 96), s.Inv ∧ s.Reaches w (0x40060100 + 4 * o.val) true ∧ (s.carried w).hearth = some (s.oOwner o) ∧
      w.master.val = 1 + (s.oOwner o).val / 8 ∧ s.ep.ecmt.getLsbD (s.oOwner o).val = true)
    ∧ (∃ (s : State) (m : Vec), s.dm.vec = some m ∧ m.swap = false ∧ (s.reg 0x40050054).getLsbD 0 = false)
    ∧ ∃ (s : State) (t p : Nat), s.dm.last = some (t, p) ∧ t + 3 * p / 2 + s.dm.ticks * p ≤ s.dnow :=
  ⟨⟨wS, wP, 95, inv_of (by decide +kernel), reaches_of (by decide +kernel), by decide +kernel⟩,
   ⟨wS, ⟨1, some 1, .gs⟩, 95, inv_of (by decide +kernel), reaches_of (by decide +kernel), by decide +kernel⟩,
   ⟨wEp id 5, wP, 95, inv_of (by decide +kernel), reaches_of (by decide +kernel), by decide +kernel⟩,
   ⟨wDm (fun d => { d with vec := some ⟨1, false, 1000⟩ }) 5 wS, ⟨1, false, 1000⟩, by decide +kernel⟩,
   ⟨wDm (fun d => { d with last := some (0, 1000), ticks := 2 }) 3500 wS, 0, 1000, by decide +kernel⟩⟩

/-- Phase 0 running on 50 Hz, its last edge at 80 ms, with its next point. -/
def wPh (st : Nat) : PhaseSt := ⟨(List.range 9).map (fun i => 80000000 - 10000000 * i), true, false, if st = 0 then 80000000 else 90000000, st, none, 3, none⟩
def wLine (st now : Nat) (s : State) : State := wDm (fun d => { d with ph := d.ph.set 0 (wPh st) }) now s
theorem test_wit_phase_edges : (∃ (s : State) (p : Fin 3) (x : PhaseSt) (a : Nat) (r : List Nat), x = s.dm.ph[p] ∧ x.run = true ∧ x.edges = a :: r ∧
      (max s.dnow (a + x.half) - min s.dnow (a + x.half)) * 10 ≤ x.half)
    ∧ (∃ (s : State) (p : Fin 3) (x : PhaseSt) (a : Nat) (r : List Nat), x = s.dm.ph[p] ∧ x.run = true ∧ x.edges = a :: r ∧
      x.half < (max s.dnow (a + x.half) - min s.dnow (a + x.half)) * 10)
    ∧ ∃ (s : State) (p : Fin 3) (x : PhaseSt) (a : Nat) (r : List Nat), s.Inv ∧ x = s.dm.ph[p] ∧ x.run = true ∧ x.edges = a :: r ∧ a * 32 + x.sum8 * 5 ≤ s.dnow * 32 :=
  ⟨⟨wLine 0 91000000 wS, 0, wPh 0, 80000000, _, by decide +kernel, rfl, rfl, by decide +kernel⟩,
   ⟨wLine 0 91000001 wS, 0, wPh 0, 80000000, _, by decide +kernel, rfl, rfl, by decide +kernel⟩,
   ⟨wLine 0 92500000 wS, 0, wPh 0, 80000000, _, inv_of (by decide +kernel), by decide +kernel, rfl, rfl, by decide +kernel⟩⟩

theorem test_wit_decisions : (∃ (s : State) (p : Fin 3), s.dnow < s.nextZk p - s.lead - 20000)
    ∧ (∃ (s : State) (p : Fin 3) (o : Fin 96) (x : Int) (t : Nat), (s.dm.ph[p]).run = true ∧ (s.dm.ph[p]).stage = 0 ∧ s.phOuts p = [o] ∧ t = s.nextZk p - s.lead - 20000 ∧ t ≤ s.dnow ∧ (s.dm.ph[p]).zk < s.nextZk p ∧
      (s.dm.out[o]).mask = 0 ∧ fld (s.reg 0x40060000) 0 8 = 0 ∧ fld (s.reg 0x40060008) 0 16 = 0 ∧ x = min ((s.dm.out[o]).e + (s.dm.out[o]).live.toNat) 131070 ∧ x < 65535)
    ∧ (∃ (s : State) (p : Fin 3) (o : Fin 96) (x : Int) (t : Nat), (s.dm.ph[p]).run = true ∧ (s.dm.ph[p]).stage = 0 ∧ s.phOuts p = [o] ∧ t = s.nextZk p - s.lead - 20000 ∧ t ≤ s.dnow ∧ (s.dm.ph[p]).zk < s.nextZk p ∧
      (s.dm.out[o]).mask = 0 ∧ fld (s.reg 0x40060000) 0 8 = 0 ∧ fld (s.reg 0x40060008) 0 16 = 0 ∧ x = min ((s.dm.out[o]).e + (s.dm.out[o]).live.toNat) 131070 ∧
      65535 ≤ x ∧ s.allowed o (s.dm.ph[p]).half t ((s.dm.out[o]).onAt' t) = true ∧ (s.ilim p = 0xFFFF ∨ s.inom o ≤ s.ilim p))
    ∧ ∃ (s : State) (p : Fin 3) (o : Fin 96) (x : Int) (t : Nat), (s.dm.ph[p]).run = true ∧ (s.dm.ph[p]).stage = 0 ∧ s.phOuts p = [o] ∧ t = s.nextZk p - s.lead - 20000 ∧ t ≤ s.dnow ∧ (s.dm.ph[p]).zk < s.nextZk p ∧
      (s.dm.out[o]).mask = 0 ∧ fld (s.reg 0x40060000) 0 8 = 0 ∧ fld (s.reg 0x40060008) 0 16 = 0 ∧ x = min ((s.dm.out[o]).e + (s.dm.out[o]).live.toNat) 131070 ∧
      65535 ≤ x ∧ s.allowed o (s.dm.ph[p]).half t ((s.dm.out[o]).onAt' t) = false :=
  ⟨⟨wLine 0 89979999 wS, 0, by decide +kernel⟩,
   ⟨wLine 0 89980000 (wOutp 1 (fun x => { x with e := 32768, live := 32766 }) wS), 0, 5, 65534, 89980000, by decide +kernel⟩,
   ⟨wLine 0 89980000 (wTab [(0x980, 100)] (wOutp 1 (fun x => { x with e := 65535, live := 65535 }) wS)), 0, 5, 131070, 89980000, by decide +kernel⟩,
   ⟨wLine 0 89980000 (wTab [(0x50, 0)] (wOutp 1 (fun x => { x with e := 65535, live := 0 }) wS)), 0, 5, 65535, 89980000, by decide +kernel⟩⟩

theorem test_wit_boundaries : (∃ (s : State) (p : Fin 3) (o : Fin 96), s.oPhase o = p.val ∧ (s.dm.out[o]).mask = 0 ∧ (s.dm.out[o]).win = none ∧ (s.dm.out[o]).fire = true ∧
      (s.dm.ph[p]).stage = 1 ∧ (s.dm.ph[p]).zk - s.lead ≤ s.dnow ∧ s.oMode o = 1)
    ∧ (∃ (s : State) (p : Fin 3) (o : Fin 96), s.oPhase o = p.val ∧ (s.dm.out[o]).mask = 0 ∧ (s.dm.out[o]).win = none ∧ (s.dm.out[o]).fire = true ∧
      (s.dm.ph[p]).stage = 2 ∧ (s.dm.ph[p]).zk + s.pdly ≤ s.dnow ∧ s.oMode o = 2 ∧ (s.dm.out[o]).clr = none)
    ∧ (∃ (s : State) (p : Fin 3) (o : Fin 96), s.oPhase o = p.val ∧ (s.dm.ph[p]).stage = 3 ∧ (s.dm.ph[p]).zk + s.pdly + s.pulse ≤ s.dnow ∧ s.oMode o = 2)
    ∧ ∃ (s : State) (p : Fin 3) (o : Fin 96) (t : Nat), s.oPhase o = p.val ∧ (s.dm.ph[p]).stage = 0 ∧ (s.dm.ph[p]).rel = some t ∧ t ≤ s.dnow ∧ s.oMode o = 1 :=
  ⟨⟨wLine 1 90000000 (wOutp 1 (fun x => { x with fire := true }) wS), 0, 5, by decide +kernel⟩,
   ⟨wLine 2 95000000 (wOutp 2 (fun x => { x with fire := true }) wS), 0, 5, by decide +kernel⟩, ⟨wLine 3 99000000 (wOutp 2 id wS), 0, 5, by decide +kernel⟩,
   ⟨wDm (fun d => { d with ph := d.ph.set 0 { wPh 0 with run := false, lost := true, rel := some 90000000 } }) 90000000 (wOutp 1 id wS), 0, 5, 90000000, by decide +kernel⟩⟩

/-- Outputs 94 and 95 in MODE 3, PWM pair 7 independent with period 65,535, and a demand. -/
def wPwm (d : BitVec 16) : State :=
  { wDm (fun x => { x with out := Vector.replicate 96 { Outp.reset with mask := 0, live := d } }) 5000
      (wTab [(0x5E0, 1000), (0x5E8, 0x3F0C0), (0x5F0, 1000), (0x5F8, 0x3F0C0)] wS) with
    regs := [(0x4006005C, 0x0100FFFF)] }
theorem test_wit_pwm : (∃ (s : State) (k : Fin 8) (o : Fin 96) (per on : Nat), (o.val = 80 + 2 * k.val ∨ o.val = 81 + 2 * k.val) ∧ s.dm.bk = false ∧
      per = fld (s.reg (0x40060040 + 4 * k.val)) 0 16 ∧ per ≠ 0 ∧ (s.reg (0x40060040 + 4 * k.val)).getLsbD 24 = true ∧ s.oMode o = 3 ∧
      (s.dm.out[o]).mask = 0 ∧ on = ((s.dm.out[o]).live.toNat * per + 32767) / 65535 ∧ on ≠ 0 ∧ s.allowed o (on * 40) s.dnow (s.dm.out[o]).en.isSome = true)
    ∧ ∃ (s : State) (k : Fin 8) (o : Fin 96) (per on : Nat), (o.val = 80 + 2 * k.val ∨ o.val = 81 + 2 * k.val) ∧ s.dm.bk = false ∧
      per = fld (s.reg (0x40060040 + 4 * k.val)) 0 16 ∧ per ≠ 0 ∧ (s.reg (0x40060040 + 4 * k.val)).getLsbD 24 = true ∧ s.oMode o = 3 ∧
      (s.dm.out[o]).mask = 0 ∧ on = ((s.dm.out[o]).live.toNat * per + 32767) / 65535 ∧ on = 0 :=
  ⟨⟨wPwm 1, 7, 95, 65535, 1, by decide +kernel⟩, ⟨wPwm 0, 7, 94, 65535, 0, by decide +kernel⟩⟩

/-- CT 11, of 10 A full scale, watches output 5 of 10 A and reads 5 A; CTN 1, CTTRIP. -/
def wCt : State :=
  wDm (fun d => { d with ct := d.ct.set 11 ⟨1, 0x4000 ^ 2, 0, 0, 0, 0, false⟩ }) 0
    (wTab [(0x54, 0x640000), (0x58, 0x1B000), (0x9CC, 100), (0x994, 0x1101)] wS)
theorem test_wit_ct : ∃ (s : State) (j : Fin 12) (x : CtSt), s.Inv ∧ x = s.dm.ct[j] ∧ s.ctfs j ≠ 0 ∧ x.n ≠ 0 ∧ s.ctExpected j = 0 ∧
    (s.ctMin j * s.cttol) ^ 2 * (x.n * 2 ^ 30) < s.ctfs j ^ 2 * x.sq * 10000 ∧ s.ctn ≤ min 15 (x.stuck + 1) ∧ s.cttrip = true ∧ s.ctn ≠ 0 :=
  ⟨wCt, 11, ⟨1, 0x4000 ^ 2, 0, 0, 0, 0, false⟩, inv_of (by decide +kernel), by decide +kernel⟩


/-! ## Witnesses: bellows, front end, link (12, 14, 15) -/

/-- Engine 1 with this state; descriptor 0x20 of system SRAM. -/
def wBel (b : Bel) (d : List (Nat × Word)) : State :=
  d.foldl (fun s p => s.wr32 (0x10000020 + p.1) p.2) { wS with bel := State.reset.bel.set 1 b, regs := [(0x400A0050, 0x10000020)] }
def wCopy : List (Nat × Word) := [(0, 0x10001000), (4, 0x20000000), (8, 0x3FFF3FFF), (12, 256)]
theorem test_wit_bellows_go : (∃ (s : State) (e : Fin 2) (w : Who), s.Inv ∧ s.ReachesGs w (0x400A0008 + 0x40 * e.val) ∧ (s.bel[e]).phase = .idle)
    ∧ (∃ (s : State) (e : Fin 2) (w : Who), s.Inv ∧ s.ReachesGs w (0x400A0008 + 0x40 * e.val) ∧ (s.bel[e]).phase ≠ .idle ∧ (s.bel[e]).err = 0)
    ∧ (∃ (s : State) (e : Fin 2), s.Inv ∧ (s.bel[e]).phase = .due)
    ∧ ∃ (s : State) (e : Fin 2), s.Inv ∧ (s.bel[e]).phase ≠ .idle ∧ (s.bel[e]).err ≠ 0 ∧ (s.bel[e]).err < 8 ∧ (s.bel[e]).chunks = [] :=
  ⟨⟨wS, 1, wG, inv_of (by decide +kernel), gs_of (by decide +kernel), by decide +kernel⟩,
   ⟨wBel ⟨.epw, [], 0, [], 0⟩ [], 1, wG, inv_of (by decide +kernel), gs_of (by decide +kernel), by decide +kernel⟩,
   ⟨wBel ⟨.due, [], 0, [], 0⟩ [], 1, inv_of (by decide +kernel), by decide +kernel⟩, ⟨wBel ⟨.run, [], 0, [], 7⟩ [], 1, inv_of (by decide +kernel), by decide +kernel⟩⟩

theorem test_wit_bellows_fetch : (∃ (s : State) (e : Fin 2) (a : Nat), s.Inv ∧ s.bel[e] = ⟨.fetch, [], 0, [], 0⟩ ∧ a = (s.reg (0x400A0010 + 0x40 * e.val)).toNat ∧
      0x10000000 ≤ a ∧ a + 32 ≤ 0x10200000 ∧ a % 32 = 0 ∧ s.targetOff 0 = false ∧ s.rd32 (a + 28) ≠ 0 ∧ s.Open 0 ∧ s.pw.ask = none)
    ∧ (∃ (s : State) (e : Fin 2) (a : Nat) (d : List Word), s.Inv ∧ s.bel[e] = ⟨.fetch, [], 0, [], 0⟩ ∧ a = (s.reg (0x400A0010 + 0x40 * e.val)).toNat ∧
      0x10000000 ≤ a ∧ a + 32 ≤ 0x10200000 ∧ a % 32 = 0 ∧ s.targetOff 0 = false ∧ d = (List.range 8).map (fun i => s.rd32 (a + 4 * i)) ∧
      s.descBad e ⟨.run, d, 0, [], 0⟩ = false ∧ (s.rd32 (a + 16)).getLsbD 6 = true ∧ s.Open 0 ∧ s.pw.ask = none)
    ∧ ∃ (s : State) (e : Fin 2) (a len : Nat) (d : List Word), s.Inv ∧ s.bel[e] = ⟨.fetch, [], 0, [], 0⟩ ∧ a = (s.reg (0x400A0010 + 0x40 * e.val)).toNat ∧
      0x10000000 ≤ a ∧ a + 32 ≤ 0x10200000 ∧ a % 32 = 0 ∧ s.targetOff 0 = false ∧ d = (List.range 8).map (fun i => s.rd32 (a + 4 * i)) ∧ len = fld (s.rd32 (a + 12)) 0 24 ∧
      s.descBad e ⟨.run, d, 0, [], 0⟩ = false ∧ fld (s.rd32 (a + 16)) 4 3 = 0 ∧ 0 < len ∧ (s.rd32 a).toNat % 256 + len ≤ 256 ∧
      (s.rd32 (a + 4)).toNat % 256 + len ≤ 256 ∧ fld (s.rd32 (a + 8)) 0 14 = 0x3FFF ∧ s.lk.tags = [] ∧ s.lk.wait = [] ∧ targetOf s.remap (s.rd32 a).toNat ≠ none ∧ s.Open 0 ∧ s.pw.ask = none :=
  ⟨⟨wBel ⟨.fetch, [], 0, [], 0⟩ [(28, 1)], 1, 0x10000020, inv_of (by decide +kernel), by decide +kernel, by decide +kernel, by decide +kernel, by decide +kernel, by decide +kernel,
      by decide +kernel, by decide +kernel, open_of (by decide +kernel), rfl⟩,
   ⟨wBel ⟨.fetch, [], 0, [], 0⟩ ((16, 0x40) :: wCopy), 1, 0x10000020, [0x10001000, 0x20000000, 0x3FFF3FFF, 256, 0x40, 0, 0, 0], inv_of (by decide +kernel),
      by decide +kernel, by decide +kernel, by decide +kernel, by decide +kernel, by decide +kernel, by decide +kernel, by decide +kernel, by decide +kernel, by decide +kernel,
      open_of (by decide +kernel), rfl⟩,
   ⟨wBel ⟨.fetch, [], 0, [], 0⟩ wCopy, 1, 0x10000020, 256, [0x10001000, 0x20000000, 0x3FFF3FFF, 256, 0, 0, 0, 0], inv_of (by decide +kernel),
      by decide +kernel, by decide +kernel, by decide +kernel, by decide +kernel, by decide +kernel, by decide +kernel, by decide +kernel, by decide +kernel, by decide +kernel, by decide +kernel, by decide +kernel, by decide +kernel, by decide +kernel, by decide +kernel, by decide +kernel, by decide +kernel, by decide +kernel, 
      open_of (by decide +kernel), rfl⟩⟩

/-- Engine 1 running a copy of 4 bytes, all asked for, with these chunks and tags. -/
def wRun (c : List Chunk) (t : List (Nat × TagUser × Nat)) (next : Word) : State :=
  let s := wBel ⟨.run, [0x10001000, 0x20000000, 0x3FFF3FFF, 4, 0x80, next, 9, 0], 4, c, 0⟩ []
  { s with lk := { s.lk with tags := t } }
theorem test_wit_bellows_chunks : (∀ rd, ∃ (s : State) (e : Fin 2) (b : Bel) (c : Chunk) (bs : List Byte) (t u : Nat), s.Inv ∧ b = s.bel[e] ∧ b.phase = .run ∧ b.err = 0 ∧
      b.issued = fld (b.desc.getD 3 0) 0 24 ∧ b.chunks = [c] ∧ c.tag = some t ∧ c.answer = some (some bs, 0) ∧ s.lk.tags = [(t, .bel e c.id, u)] ∧ s.lk.wait = [] ∧
      fld (b.desc.getD 4 0) 0 2 = 0 ∧ c.reads = rd ∧ (rd = true → fld (b.desc.getD 4 0) 4 2 = 0 ∧ fld (b.desc.getD 2 0) 16 14 = 0x3FFF ∧ c.len = bs.length ∧
        targetOf s.remap ((b.desc.getD 1 0).toNat + c.off) ≠ none))
    ∧ ∀ next ∈ [(0 : Word), 0x10000040], ∃ (s : State) (e : Fin 2) (b : Bel), s.Inv ∧ b = s.bel[e] ∧ b.phase = .run ∧ b.err = 0 ∧ b.chunks = [] ∧ b.desc ≠ [] ∧
      b.issued = fld (b.desc.getD 3 0) 0 24 ∧ (b.desc.getD 4 0).getLsbD 7 = true ∧ b.desc.getD 5 0 = next :=
  ⟨by
    intro rd
    cases rd with
    | false => exact ⟨wRun [⟨9, 0, 4, false, [1, 2, 3, 4], some 5, some (some [], 0)⟩] [(5, .bel 1 9, 0)] 0, 1,
        ⟨.run, [0x10001000, 0x20000000, 0x3FFF3FFF, 4, 0x80, 0, 9, 0], 4, [⟨9, 0, 4, false, [1, 2, 3, 4], some 5, some (some [], 0)⟩], 0⟩,
        ⟨9, 0, 4, false, [1, 2, 3, 4], some 5, some (some [], 0)⟩, [], 5, 0, inv_of (by decide +kernel), by decide +kernel⟩
    | true => exact ⟨wRun [⟨9, 0, 4, true, [], some 5, some (some [1, 2, 3, 4], 0)⟩] [(5, .bel 1 9, 0)] 0, 1,
        ⟨.run, [0x10001000, 0x20000000, 0x3FFF3FFF, 4, 0x80, 0, 9, 0], 4, [⟨9, 0, 4, true, [], some 5, some (some [1, 2, 3, 4], 0)⟩], 0⟩,
        ⟨9, 0, 4, true, [], some 5, some (some [1, 2, 3, 4], 0)⟩, [1, 2, 3, 4], 5, 0, inv_of (by decide +kernel), by decide +kernel⟩,
   by
    intro next hn
    simp only [List.mem_cons, List.not_mem_nil, or_false] at hn
    rcases hn with rfl | rfl
    · exact ⟨wRun [] [] 0, 1, ⟨.run, [0x10001000, 0x20000000, 0x3FFF3FFF, 4, 0x80, 0, 9, 0], 4, [], 0⟩, inv_of (by decide +kernel), by decide +kernel⟩
    · exact ⟨wRun [] [] 0x10000040, 1, ⟨.run, [0x10001000, 0x20000000, 0x3FFF3FFF, 4, 0x80, 0x10000040, 9, 0], 4, [], 0⟩, inv_of (by decide +kernel), by decide +kernel⟩⟩

/-- Channel 47 of the front end changed. -/
def wAfe (f : AfeCh → AfeCh) (now : Nat) : State := { wS with afe := { Afe.reset with ch := Afe.reset.ch.set 47 (f Afe.reset.ch[47]) }, now := now }
/-- A channel as reset leaves it, with a setting that waits since `t`. -/
def wSlot (t : Nat) : AfeCh := { Afe.reset.ch[47] with wr := some t }
theorem settled_of {s : State} (h : decide (∀ c : Fin 48, (s.afe.ch[c]).wr = none) = true) : s.Settled := fun c => of_decide_eq_true h c
theorem test_wit_conversions : (∃ (s : State) (c : Fin 48) (code : BitVec 24) (x : AfeCh) (m : Nat), s.Inv ∧ s.Settled ∧ s.converts = true ∧ x = s.afe.ch[c] ∧
      m = fld x.cfg 0 3 ∧ m ≠ 0 ∧ x.skip = false ∧ x.isOpen = false ∧ -8388607 < code.toInt ∧ code.toInt < 8388607)
    ∧ (∃ (s : State) (c : Fin 48) (x : AfeCh) (t : Nat), s.converts = true ∧ x = s.afe.ch[c] ∧ x.wr = some t ∧ (∀ d, d ≠ c → (s.afe.ch[d]).wr = none) ∧
      fld (s.reg (0x40070100 + 4 * c.val)) 0 3 ≠ 0 ∧ t ≤ s.now - s.chPeriod c / 6 ∧ threeWire x.cfg = threeWire (s.reg (0x40070100 + 4 * c.val)))
    ∧ (∃ (s : State) (k : Fin 3) (code : Half) (z : Int), s.converts = true ∧ (k = 0 ∨ (s.reg 0x40070040).getLsbD k.val = true) ∧
      z = code.toNat + (((if k = 0 then s.reg 0x40070044 else if k = 1 then s.reg 0x40070044 >>> 16 else s.reg 0x40070048).setWidth 16).toInt) ∧ 0 ≤ z ∧ z < 2 ^ 16)
    ∧ (∃ (s : State) (j : Fin 12) (x : BitVec 16), s.converts = true ∧ (s.reg 0x40070060).getLsbD j.val = true ∧ x ≠ 0x7FFF ∧ x ≠ 0x8000)
    ∧ (∃ (s : State) (w : Who) (c : Fin 48) (x : Word), s.Inv ∧ s.ReachesGs w (0x40070100 + 4 * c.val) ∧ s.Settled ∧ (s.reg 0x40070000).getLsbD 8 = false ∧
      fld x 0 3 < 4 ∧ fld x 4 2 < 3)
    ∧ ∃ s : State, s.afeRuns = true ∧ s.Settled :=
  ⟨⟨wAfe (fun x => { x with cfg := 1 }) 9, 47, 0x7FFFFE, { Afe.reset.ch[47] with cfg := 1 }, 1, inv_of (by decide +kernel), settled_of (by decide +kernel), by decide +kernel⟩,
   ⟨{ wAfe (fun _ => wSlot 0) 200000 with regs := [(0x400701BC, 1)] }, 47, wSlot 0, 0, by decide +kernel⟩,
   ⟨{ wS with regs := [(0x40070040, 6), (0x40070048, 0xFFFF)] }, 2, 1, 0, by decide +kernel⟩,
   ⟨{ wS with regs := [(0x40070060, 0x800)] }, 11, 0x8001, by decide +kernel⟩,
   ⟨wS, wG, 47, 0x23, inv_of (by decide +kernel), gs_of (by decide +kernel), settled_of (by decide +kernel), by decide +kernel⟩,
   ⟨wS, by decide +kernel, settled_of (by decide +kernel)⟩⟩

/-- The edge of the epoch has still to reach the front end. -/
def wEdge (s : State) : State := { s with afe := { s.afe with edge := true } }
theorem test_wit_latch : (∃ s : State, s.afe.edge = false) ∧ (∃ s : State, s.afe.edge = true ∧ s.afeRuns = false) ∧
    ∀ v, ∃ (s : State) (base : Nat) (c : Fin 48) (x : AfeCh), s.Inv ∧ s.Settled ∧ s.afe.edge = true ∧ s.afeRuns = true ∧
      base = (if s.afe.page then 0x40078000 else 0x40078100) ∧ x = s.afe.ch[c] ∧ x.v = v :=
  ⟨⟨wS, rfl⟩, ⟨wEdge (wS.setPw { wS.pw with ref := false }), rfl, by decide +kernel⟩, fun v =>
   ⟨wEdge (wAfe (fun x => { x with v := v }) 9), 0x40078100, 47, { Afe.reset.ch[47] with v := v }, by
      cases v <;> exact ⟨inv_of (by decide +kernel), settled_of (by decide +kernel), by decide +kernel⟩⟩⟩

/-- Port 1 enabled, with this state; a control word with its CRC. -/
def wPt (x : Port) (s : State) : State := { s with regs := [(0x40080060, 1)], lk := { s.lk with ports := s.lk.ports.set 1 x } }
def wCtl (ty : Nat) (n : BitVec 48) : CtlWord := ⟨n, crc8 (BitVec.ofNat 8 ty :: leBytes 6 n.toNat)⟩

/-- The same looped back. -/
def wLp (x : Port) (s : State) : State := { wPt x s with regs := [(0x40080060, 0x21)] }

theorem test_wit_training : (∀ n ∈ [7, 8], ∃ (s : State) (p : Fin 4) (x : Port), s.Inv ∧ x = s.lk.ports[p] ∧ (s.portCfg p).getLsbD 0 = true ∧ s.pw.ref = true ∧ s.pw.st < 2 ∧
      x.state = 0 ∧ x.hold = 7 ∧ s.now + 1 = n)
    ∧ (∀ l, ∀ st ∈ [1, 2], ∃ (s : State) (p : Fin 4), s.Inv ∧ (s.portCfg p).getLsbD 0 = true ∧ (s.portCfg p).getLsbD 5 = l ∧ s.pw.ref = true ∧ s.pw.st < 2 ∧ (s.lk.ports[p]).state = st)
    ∧ (∃ (s : State) (p : Fin 4) (x : Port) (c : CtlWord), s.Inv ∧ x = s.lk.ports[p] ∧ (s.portCfg p).getLsbD 0 = true ∧ (s.portCfg p).getLsbD 5 = false ∧ GoodCtl 8 c ∧ x.state = 3 ∧
      x.identN = 3 ∧ ctlArg c 4 2 = fld (s.reg 0x4008000C) 0 16 ∧ ctlArg c 3 1 = s.topo ∧ ctlArg c 1 2 % 2 ^ 14 ≠ s.nodeId.toNat ∧ s.adjacent p (ctlArg c 1 2 % 2 ^ 14) = true)
    ∧ (∃ (s : State) (p : Fin 4) (c : CtlWord), s.Inv ∧ (s.portCfg p).getLsbD 0 = true ∧ (s.portCfg p).getLsbD 5 = false ∧ GoodCtl 8 c ∧ (s.lk.ports[p]).state = 3 ∧
      ctlArg c 4 2 ≠ fld (s.reg 0x4008000C) 0 16)
    ∧ (∀ st ∈ [1, 5], ∃ (s : State) (p : Fin 4) (c : CtlWord), s.Inv ∧ (s.portCfg p).getLsbD 0 = true ∧ (s.portCfg p).getLsbD 5 = false ∧ GoodCtl 9 c ∧
      (s.lk.ports[p]).state = st ∧ (s.lk.ports[p]).queue = [])
    ∧ (∀ n ∈ [199999, 200000], ∃ (s : State) (p : Fin 4), s.Inv ∧ (s.portCfg p).getLsbD 0 = true ∧ 1 ≤ (s.lk.ports[p]).state ∧ (s.lk.ports[p]).state ≤ 3 ∧
      s.now = (s.lk.ports[p]).train + n ∧ (s.lk.ports[p]).queue = [])
    ∧ (∃ (s : State) (p : Fin 4) (x : Port), s.Inv ∧ x = s.lk.ports[p] ∧ (s.portCfg p).getLsbD 0 = true ∧ s.pw.ref = true ∧ s.pw.st < 2 ∧ x.state = 0 ∧ x.hold ≠ 0 ∧ x.hold ≤ s.now)
    ∧ ∃ (s : State) (p : Fin 4), s.Inv ∧ (s.portCfg p).getLsbD 0 = true ∧ (s.lk.ports[p]).state = 4 ∧ (∀ q : Fin 4, q ≠ p → s.portState q ≠ 4) ∧ (s.lk.ports[p]).queue = [] :=
  ⟨by
    intro n hn
    simp only [List.mem_cons, List.not_mem_nil, or_false] at hn
    rcases hn with rfl | rfl
    · exact ⟨{ wPt { Port.reset with hold := 7 } wS with now := 6 }, 1, { Port.reset with hold := 7 }, inv_of (by decide +kernel), rfl, by decide +kernel, rfl, by decide, rfl, rfl, rfl⟩
    · exact ⟨{ wPt { Port.reset with hold := 7 } wS with now := 7 }, 1, { Port.reset with hold := 7 }, inv_of (by decide +kernel), rfl, by decide +kernel, rfl, by decide, rfl, rfl, rfl⟩,
   by
    intro l st hst
    simp only [List.mem_cons, List.not_mem_nil, or_false] at hst
    cases l <;> rcases hst with rfl | rfl
    · exact ⟨wPt { Port.reset with state := 1 } wS, 1, inv_of (by decide +kernel), by decide +kernel⟩
    · exact ⟨wPt { Port.reset with state := 2 } wS, 1, inv_of (by decide +kernel), by decide +kernel⟩
    · exact ⟨wLp { Port.reset with state := 1 } wS, 1, inv_of (by decide +kernel), by decide +kernel⟩
    · exact ⟨wLp { Port.reset with state := 2 } wS, 1, inv_of (by decide +kernel), by decide +kernel⟩,
   ⟨wPt { Port.reset with state := 3, ident := some (wCtl 8 1), identN := 3 } wS, 1, { Port.reset with state := 3, ident := some (wCtl 8 1), identN := 3 }, wCtl 8 1,
      inv_of (by decide +kernel), by unfold GoodCtl; decide +kernel⟩,
   ⟨wPt { Port.reset with state := 3 } wS, 1, wCtl 8 0x1000001, inv_of (by decide +kernel), by unfold GoodCtl; decide +kernel⟩,
   by
    intro st hst
    simp only [List.mem_cons, List.not_mem_nil, or_false] at hst
    rcases hst with rfl | rfl <;>
      exact ⟨wPt { Port.reset with state := _ } wS, 1, wCtl 9 0, inv_of (by decide +kernel), by decide +kernel, by decide +kernel, by unfold GoodCtl; decide +kernel, rfl, rfl⟩,
   by
    intro n hn
    simp only [List.mem_cons, List.not_mem_nil, or_false] at hn
    rcases hn with rfl | rfl
    · exact ⟨{ wPt { Port.reset with state := 3 } wS with now := 199999 }, 1, inv_of (by decide +kernel), by decide +kernel⟩
    · exact ⟨{ wPt { Port.reset with state := 1 } wS with now := 200000 }, 1, inv_of (by decide +kernel), by decide +kernel⟩,
   ⟨{ wPt { Port.reset with hold := 7 } wS with now := 7 }, 1, { Port.reset with hold := 7 }, inv_of (by decide +kernel), rfl, by decide +kernel, rfl, by decide, rfl, by decide, by decide⟩,
   ⟨wPt { Port.reset with state := 4 } wS, 1, inv_of (by decide +kernel), by decide +kernel⟩⟩

/-- A frame of 16 header bytes and payload, with its checks; sent once. -/
def wFr (ty : Byte) (dst : BitVec 14) (tag : Nat) (md : Byte) (addr : Word) (pay : List Word) : Frame :=
  sealFrame { type := ty, tc := typeTc ty.toNat, det := false, w := false, sv := false, gen := 0, dst := dst, src := 9, hops := 1, lseq := 0, tag := tag
              hrt := 0, mod := md, addr := addr, payload := pay, ins := false, bad := false, ret := false, hcrc := 0, fcrc := 0 }
def wUp (f : Port → Port) : State := wPt (f { Port.reset with state := 4 }) wS
theorem test_wit_control_words : (∃ (s : State) (p : Fin 4) (x : Port) (c : CtlWord) (d : Sent) (r : List Sent), s.Inv ∧ x = s.lk.ports[p] ∧ s.portState p = 4 ∧ (s.portCfg p).getLsbD 5 = false ∧
      GoodCtl 1 c ∧ x.replay = d :: r ∧ d.frame.lseq = ctlArg c 1 1 ∧ x.queue = [])
    ∧ (∃ (s : State) (p : Fin 4) (x : Port) (c : CtlWord) (d : Sent), s.Inv ∧ x = s.lk.ports[p] ∧ s.portState p = 4 ∧ (s.portCfg p).getLsbD 5 = false ∧ GoodCtl 2 c ∧ x.replay = [d] ∧ d.frame.lseq = ctlArg c 1 1)
    ∧ (∀ n ∈ [(1 : BitVec 48), 3], ∃ (s : State) (p : Fin 4) (c : CtlWord), s.Inv ∧ s.portState p = 4 ∧ (s.portCfg p).getLsbD 5 = false ∧ GoodCtl 4 c ∧ 1 ≤ ctlArg c 1 1 ∧ ctlArg c 1 1 ≤ 3 ∧
      (s.lk.ports[p]).queue = [] ∧ c.args = n)
    ∧ (∀ l ∈ [[7], [7, 9]], ∃ (s : State) (p : Fin 4) (c d : CtlWord), s.Inv ∧ s.portState p = 4 ∧ (s.portCfg p).getLsbD 5 = false ∧ GoodCtl 6 c ∧ GoodCtl 7 d ∧ (s.lk.ports[p]).stamps = l)
    ∧ (∃ c, GoodCtl 5 c) ∧ (∀ ty ∈ [1, 2, 3, 4, 5, 6, 7, 8, 9], ∃ k : CtlWord, ¬ GoodCtl ty k) ∧ ∃ (u : State) (q : Fin 4), (u.portCfg q).getLsbD 5 = true :=
  ⟨⟨wUp fun x => { x with replay := [⟨wFr 0x03 7 1 0xF 0 [1], 0, 0⟩] }, 1, { Port.reset with state := 4, replay := [⟨wFr 0x03 7 1 0xF 0 [1], 0, 0⟩] }, wCtl 1 0,
      ⟨wFr 0x03 7 1 0xF 0 [1], 0, 0⟩, [], inv_of (by decide +kernel), by unfold GoodCtl; decide +kernel⟩,
   ⟨wUp fun x => { x with replay := [⟨wFr 0x03 7 1 0xF 0 [1], 0, 0⟩] }, 1, { Port.reset with state := 4, replay := [⟨wFr 0x03 7 1 0xF 0 [1], 0, 0⟩] }, wCtl 2 0,
      ⟨wFr 0x03 7 1 0xF 0 [1], 0, 0⟩, inv_of (by decide +kernel), by unfold GoodCtl; decide +kernel⟩,
   by
    intro n hn
    simp only [List.mem_cons, List.not_mem_nil, or_false] at hn
    rcases hn with rfl | rfl <;> exact ⟨wUp id, 1, wCtl 4 _, inv_of (by decide +kernel), by decide +kernel, by decide +kernel, by unfold GoodCtl; decide +kernel, by decide, by decide, rfl, rfl⟩,
   by
    intro l hl
    simp only [List.mem_cons, List.not_mem_nil, or_false] at hl
    rcases hl with rfl | rfl <;>
      exact ⟨wUp fun x => { x with stamps := _ }, 1, wCtl 6 0, wCtl 7 0, inv_of (by decide +kernel), by decide +kernel, by decide +kernel, by unfold GoodCtl; decide +kernel, by unfold GoodCtl; decide +kernel, rfl⟩,
   ⟨wCtl 5 0, by unfold GoodCtl; decide +kernel⟩, by
    intro ty hty
    have hs : ∀ ty ∈ [1, 2, 3, 4, 5, 6, 7, 8, 9], ctlOk ty ⟨0, 1⟩ = false := by decide +kernel
    exact ⟨⟨0, 1⟩, by unfold GoodCtl; rw [hs ty hty]; decide⟩,
   ⟨wLp Port.reset wS, 1, by decide +kernel⟩⟩

theorem test_wit_link_timers : (∀ n ∈ [6, 7], ∃ (s : State) (p : Fin 4) (x : Port) (d : Sent), s.Inv ∧ x = s.lk.ports[p] ∧ x.replay = [d] ∧ d.last + 4000 ≤ s.now ∧ d.again = n ∧
      x.queue = [] ∧ d.frame.type = 0x0C ∧ d.frame.dst = 0x3FFF)
    ∧ (∀ t ∈ [35999, 36000], ∃ (s : State) (p : Fin 4) (x : Port) (g : HeldFrame), x = s.lk.ports[p] ∧ x.held = [g] ∧ s.now = g.acked + t ∧ g.last + 4000 ≤ s.now ∧ g.free = false ∧ g.frame.tc = 3 ∧ g.frame.det = false)
    ∧ (∀ up ∈ [true, false], ∃ (s : State) (n t : Nat) (f : Frame), s.lk.resp[n]? = some (f, t) ∧ t + 36000 ≤ s.now ∧ (s.portState (s.route none f).1 = 4 ↔ up = true))
    ∧ ∃ (s : State) (t u k : Nat) (h : Hid) (f : FarOp), s.lk.tags = [(t, .far h k, u)] ∧ (s.hearth h).far = [f] ∧ f.id = k ∧ farIsStore f.kind = false ∧
      u + 1000 * fld (s.reg 0x40080010) 0 16 ≤ s.now :=
  ⟨by
    intro n hn
    simp only [List.mem_cons, List.not_mem_nil, or_false] at hn
    rcases hn with rfl | rfl <;>
      exact ⟨{ wUp (fun x => { x with replay := [⟨wFr 0x0C 0x3FFF 0 0 0 [1, 0, 2, 0], 0, _⟩] }) with now := 4000 }, 1,
        { Port.reset with state := 4, replay := [⟨wFr 0x0C 0x3FFF 0 0 0 [1, 0, 2, 0], 0, _⟩] }, ⟨wFr 0x0C 0x3FFF 0 0 0 [1, 0, 2, 0], 0, _⟩, inv_of (by decide +kernel),
        rfl, rfl, by decide, rfl, rfl, rfl, rfl⟩,
   by
    intro t ht
    simp only [List.mem_cons, List.not_mem_nil, or_false] at ht
    rcases ht with rfl | rfl <;>
      exact ⟨{ wUp (fun x => { x with held := [⟨wFr 0x03 0 1 0xF 0 [1], 0, 4000, false⟩] }) with now := _ }, 1,
        { Port.reset with state := 4, held := [⟨wFr 0x03 0 1 0xF 0 [1], 0, 4000, false⟩] }, ⟨wFr 0x03 0 1 0xF 0 [1], 0, 4000, false⟩, rfl, rfl, rfl, by decide, rfl, by decide, rfl⟩,
   by
    intro up hup
    have hs : ∀ up ∈ [true, false], ((let s : State := { (if up then wUp id else wS) with now := 36000 }; s.portState (s.route none (wFr 0x02 9 1 0 0 [1])).1 = 4) ↔ up = true) := by
      decide +kernel
    exact ⟨{ (if up then wUp id else wS) with now := 36000, lk := { (if up then wUp id else wS).lk with resp := [(wFr 0x02 9 1 0 0 [1], 0)] } }, 0, 0, wFr 0x02 9 1 0 0 [1], rfl, Nat.le_refl _, by
      have := hs up hup; cases up <;> exact this⟩,
   ⟨{ (wH fun x => { x with far := [wFar1 .ld (.reg 3) .waiting] }) with lk := { Link.reset with tags := [(1023, .far 0 5, 0)] }, regs := [(0x40080010, 7)], now := 7000 }, 1023, 0, 5, 0, wFar1 .ld (.reg 3) .waiting, by decide +kernel, rfl, rfl, rfl, by decide +kernel⟩⟩


/-! ## Witnesses: frames, requests and replies (12), secure SRAM and life cycle (14, 16) -/

theorem good_of {s : State} {p : Fin 4} {f : Frame} {ty : Byte}
    (h : (decide (s.portState p = 4) && f.hcrc == frameHcrc f && f.fcrc == frameFcrc f && decide (f.lseq < 256) && decide (f.lseq = (s.lk.ports[p]).rx)
      && f.type == ty && inColumns f && decide ((s.portCfg p).getLsbD 5 = false ∧ f.bad = false ∧ f.ret = false ∧ (f.tc % 4 = 0 → s.tc0Waits p < 8)
        ∧ goesAfter (s.lk.ports[p]).held f = false)) = true) : s.Good p f ty := by
  simp only [Bool.and_eq_true, decide_eq_true_eq, beq_iff_eq] at h
  exact ⟨h.1.1.1.1.1.1.1, h.1.1.1.1.1.1.2, h.1.1.1.1.1.2, h.1.1.1.1.2, h.1.1.1.2, h.1.1.2, h.1.2, h.2⟩

/-- A frame without payload and with no checks made. -/
def wRaw (ty : Byte) : Frame :=
  { type := ty, tc := 0, det := false, w := false, sv := false, gen := 0, dst := 0, src := 9, hops := 1, lseq := 0, tag := 0, hrt := 0, mod := 0, addr := 0, payload := []
    ins := false, bad := false, ret := false, hcrc := 0, fcrc := 0 }
/-- Node 5 of a chain with ports 1 and 3 UP. -/
def wMid : State :=
  { wS with regs := [(0x40080004, 5), (0x40080060, 1), (0x400800A0, 1)]
            lk := { wS.lk with ports := (wS.lk.ports.set 1 { Port.reset with state := 4 }).set 3 { Port.reset with state := 4 } } }
theorem test_wit_frames_in_order : (∀ r ∈ frameRows, ∃ (s : State) (p : Fin 4) (f : Frame), s.Inv ∧ f.type = r.2 ∧ s.portState p = 4 ∧ (s.portCfg p).getLsbD 5 = false ∧
        f.hcrc ≠ frameHcrc f)
    ∧ (∀ b, ∃ (s : State) (p : Fin 4) (f : Frame), s.Inv ∧ s.portState p = 4 ∧ (s.portCfg p).getLsbD 5 = false ∧ f.hcrc = frameHcrc f ∧ f.bad = b ∧
        f.fcrc ≠ frameFcrc f ∧ f.dst = 0x3FFF)
    ∧ (∃ (s : State) (p : Fin 4) (f : Frame) (q : Fin 4) (g : Frame) (y : Port), s.Inv ∧ s.portState p = 4 ∧ (s.portCfg p).getLsbD 5 = false ∧ f.hcrc = frameHcrc f ∧
        f.fcrc ≠ frameFcrc f ∧ f.dst ≠ 0x3FFF ∧ f.dst ≠ s.nodeId ∧ f.hops < 255 ∧ f.type = 0x07 ∧ s.route (some p) f = (q, g) ∧ y = s.lk.ports[q] ∧ s.portState q = 4 ∧
        y.queue = [] ∧ y.busy ≤ s.now ∧ y.hasCredit g = true)
    ∧ (∃ (s : State) (p : Fin 4) (f : Frame) (q : Fin 4) (g : Frame) (y : Port), s.Inv ∧ s.Good p f 0x07 ∧ f.dst ≠ 0x3FFF ∧ f.dst ≠ s.nodeId ∧ f.hops < 255 ∧
        f.tc % 4 ≠ 0 ∧ f.det = false ∧ s.route (some p) f = (q, g) ∧ q ≠ p ∧ y = s.lk.ports[q] ∧ s.portState q = 4 ∧
        y.queue = [] ∧ y.busy ≤ s.now ∧ y.replay.length < 64 ∧ y.hasCredit g = true)
    ∧ (∀ r ∈ frameRows, ∀ n ∈ [0, 128, 129, 255], ∃ (s : State) (p : Fin 4) (f : Frame), s.Inv ∧ f.type = r.2 ∧ s.portState p = 4 ∧ (s.portCfg p).getLsbD 5 = false ∧
        f.hcrc = frameHcrc f ∧ f.bad = false ∧
        f.fcrc = frameFcrc f ∧ f.lseq < 256 ∧ (s.lk.ports[p]).rx < 256 ∧ (f.lseq + 256 - (s.lk.ports[p]).rx) % 256 = (256 - n) % 256)
    ∧ ∀ ty ∈ [(0x03 : Byte), 0x05], ∃ f : Frame, f.type = ty ∧ f.lseq = 0 ∧ f.tc % 4 ≠ 0 := by
  have h2 : ∀ r ∈ frameRows.map Prod.snd, (wRaw r).hcrc ≠ frameHcrc (wRaw r) := by decide +kernel
  have h3 : ∀ r ∈ frameRows.map Prod.snd, (wFr r 0 0 0 0 []).type = r ∧ (wFr r 0 0 0 0 []).hcrc = frameHcrc (wFr r 0 0 0 0 [])
      ∧ (wFr r 0 0 0 0 []).fcrc = frameFcrc (wFr r 0 0 0 0 []) ∧ (wFr r 0 0 0 0 []).lseq = 0 := by decide +kernel
  refine ⟨fun r hr => ⟨wUp id, 1, wRaw r.2, inv_of (by decide +kernel), rfl, by decide +kernel, by decide +kernel, h2 r.2 (List.mem_map_of_mem hr)⟩, fun b => ?_,
    ⟨wMid, 1, { wFr 0x07 2 1 0 0 [1, 2] with fcrc := 0 }, 3, { wFr 0x07 2 1 0 0 [1, 2] with fcrc := 0 }, { Port.reset with state := 4 }, inv_of (by decide +kernel), by decide +kernel⟩,
    ⟨wMid, 1, wFr 0x07 2 1 0 0 [1, 2], 3, wFr 0x07 2 1 0 0 [1, 2], { Port.reset with state := 4 }, inv_of (by decide +kernel), good_of (by decide +kernel), by decide +kernel⟩,
    fun r hr n hn => ?_, ?_⟩
  · exact ⟨wUp id, 1, { wFr 0x0C 0x3FFF 0 0 0 [] with fcrc := 0, bad := b }, inv_of (by decide +kernel), by cases b <;> decide +kernel⟩
  · obtain ⟨a, b, c, d⟩ := h3 r.2 (List.mem_map_of_mem hr)
    refine ⟨wUp fun x => { x with rx := n }, 1, wFr r.2 0 0 0 0 [], ?_, a, ?_, ?_, b, rfl, c, by rw [d]; decide, ?_, ?_⟩
    · simp only [List.mem_cons, List.not_mem_nil, or_false] at hn
      rcases hn with rfl | rfl | rfl | rfl <;> exact inv_of (by decide +kernel)
    · simp only [List.mem_cons, List.not_mem_nil, or_false] at hn
      rcases hn with rfl | rfl | rfl | rfl <;> decide +kernel
    · simp only [List.mem_cons, List.not_mem_nil, or_false] at hn
      rcases hn with rfl | rfl | rfl | rfl <;> decide +kernel
    · show n < 256
      simp only [List.mem_cons, List.not_mem_nil, or_false] at hn
      omega
    · rw [d]
      show (0 + 256 - n) % 256 = (256 - n) % 256
      omega
  · intro ty hty
    simp only [List.mem_cons, List.not_mem_nil, or_false] at hty
    rcases hty with rfl | rfl
    · exact ⟨wFr 0x03 0 0 0 0 [], by decide +kernel⟩
    · exact ⟨wFr 0x05 0 0 0 0 [], by decide +kernel⟩

/-- A request window over all of bank 0 of felt, and the requests of the P world admitted. -/
def wReqS (f : Port → Port) : State := { wUp f with regs := [(0x40080000, 1), (0x40080060, 1), (0x40080100, 0x20000000), (0x40080104, 0x2000F000), (0x40080108, 0x33)] }
theorem test_wit_requests : (∀ md ∈ [(0 : Byte), 63, 0x80], ∃ (s : State) (p : Fin 4) (f : Frame), s.Inv ∧ s.Good p f 0x01 ∧ f.dst = s.nodeId ∧ s.admits f = true ∧
      targetOf s.remap f.addr.toNat ≠ none ∧ f.mod = md)
    ∧ (∃ (s : State) (p : Fin 4) (f : Frame), s.Inv ∧ s.Good p f 0x01 ∧ f.dst = s.nodeId ∧ s.admits f = false)
    ∧ ∀ k ∈ [((0x03 : Byte), (0xF : Byte)), (0x03, 5), (0x05, 0)], ∃ (s : State) (p : Fin 4) (c : CtlWord) (g : HeldFrame) (f : Frame), s.Inv ∧ s.portState p = 4 ∧
      (s.portCfg p).getLsbD 5 = false ∧ GoodCtl 3 c ∧ (s.lk.ports[p]).held = [g] ∧ g.free = false ∧ g.frame = f ∧ f.ret = false ∧ f.payload.length = 1 ∧ f.lseq = ctlArg c 1 1 ∧ f.lseq < 256 ∧ f.dst = s.nodeId ∧ inColumns f = true ∧ s.admits f = true ∧ targetOf s.remap f.addr.toNat ≠ none ∧
      f.type = k.1 ∧ f.mod = k.2 :=
  ⟨by
    intro md hmd
    simp only [List.mem_cons, List.not_mem_nil, or_false] at hmd
    rcases hmd with rfl | rfl | rfl <;>
      exact ⟨wReqS id, 1, wFr 0x01 0 1 _ 0x20000000 [], inv_of (by decide +kernel), good_of (by decide +kernel), by decide +kernel, by decide +kernel, by decide +kernel, rfl⟩,
   ⟨wReqS id, 1, wFr 0x01 0 1 0 0x20010000 [], inv_of (by decide +kernel), good_of (by decide +kernel), by decide +kernel, by decide +kernel⟩,
   by
    intro k hk
    simp only [List.mem_cons, List.not_mem_nil, or_false] at hk
    rcases hk with rfl | rfl | rfl
    · exact ⟨wReqS fun x => { x with held := [⟨wFr 0x03 0 1 0xF 0x20000000 [5], 0, 0, false⟩] }, 1, wCtl 3 0, ⟨wFr 0x03 0 1 0xF 0x20000000 [5], 0, 0, false⟩, wFr 0x03 0 1 0xF 0x20000000 [5],
        inv_of (by decide +kernel), by decide +kernel, by decide +kernel, by unfold GoodCtl; decide +kernel, by decide +kernel⟩
    · exact ⟨wReqS fun x => { x with held := [⟨wFr 0x03 0 1 5 0x20000000 [5], 0, 0, false⟩] }, 1, wCtl 3 0, ⟨wFr 0x03 0 1 5 0x20000000 [5], 0, 0, false⟩, wFr 0x03 0 1 5 0x20000000 [5],
        inv_of (by decide +kernel), by decide +kernel, by decide +kernel, by unfold GoodCtl; decide +kernel, by decide +kernel⟩
    · exact ⟨wReqS fun x => { x with held := [⟨wFr 0x05 0 1 0 0x2000FFFC [5], 0, 0, false⟩] }, 1, wCtl 3 0, ⟨wFr 0x05 0 1 0 0x2000FFFC [5], 0, 0, false⟩, wFr 0x05 0 1 0 0x2000FFFC [5],
        inv_of (by decide +kernel), by decide +kernel, by decide +kernel, by unfold GoodCtl; decide +kernel, by decide +kernel⟩⟩

/-- Tag 1 in use by this user. -/
def wTag (u : TagUser) (s : State) : State := { s with lk := { (wUp id).lk with tags := [(1, u, 0)] }, regs := [(0x40080060, 1)] }
theorem test_wit_replies : (∀ k ∈ [(FarKind.ld, (0x02 : Byte)), (.st, 0x04), (.add, 0x06), (.ld, 0x12)], ∃ (s : State) (p : Fin 4) (f : Frame) (h : Hid) (n : Nat) (x : FarOp), f.dst = s.nodeId ∧
      s.tagUser f.tag f.gen = some (.far h n) ∧ (s.hearth h).far = [x] ∧ x.id = n ∧ s.Good p f k.2 ∧ x.kind = k.1 ∧ (k.2 ≠ 0x12 → f.mod = 0) ∧
      (k.2 = 0x02 ∨ k.2 = 0x06 → ∃ w, f.payload = [w]))
    ∧ (∀ ty ∈ [(0x02 : Byte), 0x04, 0x06, 0x08, 0x0A, 0x12], ∃ (s : State) (p : Fin 4) (f : Frame), s.Inv ∧ f.dst = s.nodeId ∧ s.tagUser f.tag f.gen = none ∧ s.Good p f ty)
    ∧ (∃ (s : State) (p : Fin 4) (f : Frame) (k : Nat) (o : OutPost) (h : Hid) (y : Byte), f.dst = s.nodeId ∧ s.tagUser f.tag f.gen = some (.post k) ∧ s.hub.outs = [o] ∧ o.id = k ∧
      s.Good p f 0x08 ∧ o.sender = .hearth h ∧ (s.hearth h).pstatOf o.box = some (o.id, y))
    ∧ ∃ (s : State) (p : Fin 4) (f : Frame) (h : Hid) (k : Nat) (q : FulReq), f.dst = s.nodeId ∧ s.tagUser f.tag f.gen = some (.halo h k) ∧ (s.hearth h).ful = [q] ∧ q.kind = .run 3 ∧
      q.started = true ∧ q.done = false ∧ q.count ≤ q.next ∧ 2 ≤ q.remote ∧ s.Good p f 0x0A ∧ f.mod = 0 :=
  ⟨by
    intro k hk
    simp only [List.mem_cons, List.not_mem_nil, or_false] at hk
    rcases hk with rfl | rfl | rfl | rfl
    · exact ⟨wTag (.far 0 5) (wH fun x => { x with far := [wFar1 .ld (.reg 3) .waiting] }), 1, wFr 0x02 0 1 0 0 [7], 0, 5, wFar1 _ _ .waiting, by decide +kernel, by decide +kernel, rfl, rfl, good_of (by decide +kernel), rfl, fun _ => rfl, fun _ => ⟨7, rfl⟩⟩
    · exact ⟨wTag (.far 0 5) (wH fun x => { x with far := [wFar1 .st .nowhere .waiting] }), 1, wFr 0x04 0 1 0 0 [], 0, 5, wFar1 _ _ .waiting, by decide +kernel, by decide +kernel, rfl, rfl, good_of (by decide +kernel), rfl, fun _ => rfl, by decide⟩
    · exact ⟨wTag (.far 0 5) (wH fun x => { x with far := [wFar1 .add .lsu1 .waiting] }), 1, wFr 0x06 0 1 0 0 [7], 0, 5, wFar1 _ _ .waiting, by decide +kernel, by decide +kernel, rfl, rfl, good_of (by decide +kernel), rfl, fun _ => rfl, fun _ => ⟨7, rfl⟩⟩
    · exact ⟨wTag (.far 0 5) (wH fun x => { x with far := [wFar1 .ld (.reg 3) .waiting] }), 1, wFr 0x12 0 1 3 0 [], 0, 5, wFar1 _ _ .waiting, by decide +kernel, by decide +kernel, rfl, rfl, good_of (by decide +kernel), rfl, fun h => absurd rfl h, by decide⟩,
   by
    intro ty hty
    simp only [List.mem_cons, List.not_mem_nil, or_false] at hty
    rcases hty with rfl | rfl | rfl | rfl | rfl | rfl
    · exact ⟨wUp id, 1, wFr 0x02 0 9 0 0 [], inv_of (by decide +kernel), by decide +kernel, by decide +kernel, good_of (by decide +kernel)⟩
    · exact ⟨wUp id, 1, wFr 0x04 0 9 0 0 [], inv_of (by decide +kernel), by decide +kernel, by decide +kernel, good_of (by decide +kernel)⟩
    · exact ⟨wUp id, 1, wFr 0x06 0 9 0 0 [1], inv_of (by decide +kernel), by decide +kernel, by decide +kernel, good_of (by decide +kernel)⟩
    · exact ⟨wUp id, 1, wFr 0x08 0 9 0 0 [], inv_of (by decide +kernel), by decide +kernel, by decide +kernel, good_of (by decide +kernel)⟩
    · exact ⟨wUp id, 1, wFr 0x0A 0 9 0 0 [], inv_of (by decide +kernel), by decide +kernel, by decide +kernel, good_of (by decide +kernel)⟩
    · exact ⟨wUp id, 1, wFr 0x12 0 9 1 0 [], inv_of (by decide +kernel), by decide +kernel, by decide +kernel, good_of (by decide +kernel)⟩,
   ⟨wTag (.post 4) wOut, 1, wFr 0x08 0 1 7 0 [], 4, _, 2, 7, by decide +kernel, by decide +kernel, rfl, rfl, good_of (by decide +kernel), rfl, by decide +kernel⟩,
   ⟨wTag (.halo 0 3) (wFul [wFq (.run 3) 0 0 1 0 true false []]), 1, wFr 0x0A 0 1 0 0 [], 0, 3, _, by decide +kernel, by decide +kernel, rfl, rfl, rfl, rfl, by decide, by decide, good_of (by decide +kernel), rfl⟩⟩

/-- Port 1 UP and mailbox 127 for hearth 5; hearth 63 with one remote halo entry expected. -/
def wIn : State := { ((wUp id).modHearth 63 fun x => { x with cr := [(0x458, 1)] }) with regs := [(0x40080060, 1), (0x400902FC, 0x85)] }
theorem test_wit_other_frames : (∃ (s : State) (p : Fin 4) (f : Frame) (n : Nat), s.Inv ∧ s.Good p f 0x07 ∧ f.dst = s.nodeId ∧ n = 96 + f.mod.toNat ∧ mbEn (s.mbcfg n) = true ∧
      mbG (s.mbcfg n) = f.w ∧ f.w = false ∧ (s.hearth (mbRcv (s.mbcfg n))).run ≠ .held ∧ s.hub.outs = [] ∧ (s.box n).length < 8)
    ∧ (∃ (s : State) (p : Fin 4) (f : Frame) (h : Hid) (a b c d : Word), s.Inv ∧ s.Good p f 0x09 ∧ f.dst = s.nodeId ∧ h = fin 64 (fld f.addr 11 6) ∧
      (fld f.addr 24 8, f.mod.toNat) = s.subTag ∧ fld ((s.hearth h).rd 0x458) 0 11 ≠ 0 ∧ f.payload = [a, b, c, d])
    ∧ (∀ t ∈ [(⟨9, 0, 0, 0⟩ : StepTok), ⟨9, 0, 1, 1⟩, ⟨9, 1, 0, 0⟩, ⟨9, 2, 0, 0⟩, ⟨9, 2, 1, 0⟩, ⟨9, 1, 0, 1⟩], ∃ (s : State) (p : Fin 4) (f : Frame), s.Inv ∧ s.Good p f 0x0B ∧ f.dst = s.nodeId ∧
      t = ⟨f.src, tokBar f, fld f.addr 0 8, fld f.addr 8 8⟩ ∧ t ∉ s.felt.toks ∧ s.felt.cnt0 = 0 ∧ s.subTag = (0, 0))
    ∧ (∀ w ∈ [0x10001, 0x10002], ∃ (s : State) (p : Fin 4) (f : Frame) (w' : Word), s.Inv ∧ f.dst = 0x3FFF ∧ s.Good p f 0x10 ∧ f.payload = [w'] ∧ w'.toNat = w ∧
      (w = 0x10001 → (f.src.toNat, fld w' 16 8) ∈ s.lk.rqs) ∧ (w = 0x10002 → (f.src.toNat, fld w' 16 8) ∉ s.lk.rqs ∧ (s.reg 0x40050000).getLsbD 0 = true))
    ∧ (∃ (s : State) (p : Fin 4) (f : Frame), s.Inv ∧ f.dst = s.nodeId ∧ s.Good p f 0x11 ∧ (s.reg 0x40080000).getLsbD 2 = false)
    ∧ ∀ n ∈ [(9 : Word), 0x3FFF], ∃ (s : State) (p : Fin 4) (f : Frame), s.Inv ∧ f.dst = s.nodeId ∧ s.Good p f 0x11 ∧ (s.reg 0x40080000).getLsbD 2 = true ∧
      f.src = 9 ∧ s.reg 0x40080014 = n ∧ f.w = true ∧ f.sv = true ∧ f.payload = [0x0000A55A] :=
  ⟨⟨wIn, 1, wFr 0x07 0 1 31 0 [1, 2], 127, inv_of (by decide +kernel), good_of (by decide +kernel), by decide +kernel, by decide +kernel, by decide +kernel, by decide +kernel, rfl,
      by decide +kernel, rfl, by decide +kernel⟩,
   ⟨wIn, 1, wFr 0x09 0 1 0 0x1FFFF [1, 2, 3, 4], 63, 1, 2, 3, 4, inv_of (by decide +kernel), good_of (by decide +kernel), by decide +kernel⟩,
   by
    intro t ht
    simp only [List.mem_cons, List.not_mem_nil, or_false] at ht
    rcases ht with rfl | rfl | rfl | rfl | rfl | rfl
    · exact ⟨wUp id, 1, wFr 0x0B 0 1 0 0 [], inv_of (by decide +kernel), good_of (by decide +kernel), by decide +kernel⟩
    · exact ⟨wUp id, 1, wFr 0x0B 0 1 0 257 [], inv_of (by decide +kernel), good_of (by decide +kernel), by decide +kernel⟩
    · exact ⟨wUp id, 1, wFr 0x0B 0 0 0 0 [], inv_of (by decide +kernel), good_of (by decide +kernel), by decide +kernel⟩
    · exact ⟨wUp id, 1, wFr 0x0B 0 0 1 0 [], inv_of (by decide +kernel), good_of (by decide +kernel), by decide +kernel⟩
    · exact ⟨wUp id, 1, wFr 0x0B 0 0 1 1 [], inv_of (by decide +kernel), good_of (by decide +kernel), by decide +kernel⟩
    · exact ⟨wUp id, 1, wFr 0x0B 0 0 0 256 [], inv_of (by decide +kernel), good_of (by decide +kernel), by decide +kernel⟩,
   by
    intro w hw
    simp only [List.mem_cons, List.not_mem_nil, or_false] at hw
    rcases hw with rfl | rfl
    · exact ⟨{ wUp id with lk := { (wUp id).lk with rqs := [(9, 1)] } }, 1, wFr 0x10 0x3FFF 0 0 0 [0x10001], 0x10001, inv_of (by decide +kernel), rfl, good_of (by decide +kernel), by decide +kernel⟩
    · exact ⟨{ wUp id with regs := [(0x40050000, 1), (0x40080060, 1)] }, 1, wFr 0x10 0x3FFF 0 0 0 [0x10002], 0x10002, inv_of (by decide +kernel), rfl, good_of (by decide +kernel), by decide +kernel⟩,
   ⟨wUp id, 1, wFr 0x11 0 1 0 0 [0x5252], inv_of (by decide +kernel), by decide +kernel, good_of (by decide +kernel), by decide +kernel⟩,
   by
    intro n hn
    simp only [List.mem_cons, List.not_mem_nil, or_false] at hn
    rcases hn with rfl | rfl
    · exact ⟨{ wUp id with regs := [(0x40080000, 4), (0x40080014, 9), (0x40080060, 1)] }, 1, sealFrame { wFr 0x11 0 1 0 0 [0xA55A] with w := true, sv := true },
        inv_of (by decide +kernel), by decide +kernel, good_of (by decide +kernel), by decide +kernel⟩
    · exact ⟨{ wUp id with regs := [(0x40080000, 4), (0x40080014, 0x3FFF), (0x40080060, 1)] }, 1, sealFrame { wFr 0x11 0 1 0 0 [0xA55A] with w := true, sv := true },
        inv_of (by decide +kernel), by decide +kernel, good_of (by decide +kernel), by decide +kernel⟩⟩

/-- A member or the origin of a fabric at port 1, with its tree, a decision, epoch 4. -/
def wMem (r tree : Word) (d : List EpDec) : State :=
  { wUp id with ep := { Ep.reset with started := true, cur := 4, per := 1000, tree := tree, dec := d }, regs := [(0x40040000, r), (0x40080060, 1)] }
theorem test_wit_epoch_frames : (∀ n ∈ [4, 6], ∃ (s : State) (p : Fin 4) (f : Frame) (t : Nat), s.Inv ∧ s.Good p f 0x0C ∧ f.dst = 0x3FFF ∧ (s.reg 0x40040000).getLsbD 1 = false ∧
      (s.reg 0x40040000).getLsbD 2 = true ∧ fld s.ep.tree 0 3 = p.val ∧ s.ep.started = true ∧ f.payload = twoWords n ++ twoWords t ∧ n < 2 ^ 48 ∧ t < 2 ^ 64 ∧ s.ep.cur = 4)
    ∧ (∃ (s : State) (p : Fin 4) (f : Frame) (d : EpDec) (n : Nat), s.Inv ∧ f.dst = 0x3FFF ∧ (s.reg 0x40040000).getLsbD 1 = false ∧ (s.reg 0x40040000).getLsbD 2 = true ∧
      s.ep.tree.getLsbD (4 + p.val) = true ∧ s.ep.dec = [d] ∧ d.epoch = n ∧ d.own = none ∧ d.ackSent = false ∧ s.Good p f 0x0D ∧ f.payload = twoWords n ∧ n < 2 ^ 48 ∧ f.mod = 0)
    ∧ (∃ (s : State) (p : Fin 4) (f : Frame) (d : EpDec) (n : Nat), s.Inv ∧ f.dst = 0x3FFF ∧ (s.reg 0x40040000).getLsbD 1 = true ∧ (s.reg 0x40040000).getLsbD 2 = true ∧
      s.ep.tree.getLsbD (4 + p.val) = true ∧ s.ep.dec = [d] ∧ d.epoch = n ∧ d.own = none ∧ d.sealed = false ∧ d.ents = [⟨f.src, true, false⟩] ∧ s.Good p f 0x0E ∧
      f.payload = twoWords n ∧ n < 2 ^ 48 ∧ f.mod = 0)
    ∧ ∃ (s : State) (p : Fin 4) (f : Frame) (n : Nat), s.Inv ∧ f.dst = 0x3FFF ∧ (s.reg 0x40040000).getLsbD 1 = false ∧ (s.reg 0x40040000).getLsbD 2 = true ∧
      fld s.ep.tree 0 3 = p.val ∧ s.ep.cur ≤ n ∧ s.Good p f 0x0F ∧ f.payload = twoWords n ∧ n < 2 ^ 48 ∧ f.mod = 0 :=
  ⟨by
    intro n hn
    simp only [List.mem_cons, List.not_mem_nil, or_false] at hn
    rcases hn with rfl | rfl
    · exact ⟨wMem 5 1 [], 1, wFr 0x0C 0x3FFF 0 0 0 (twoWords 4 ++ twoWords 9), 9, inv_of (by decide +kernel), good_of (by decide +kernel), by decide +kernel⟩
    · exact ⟨wMem 5 1 [], 1, wFr 0x0C 0x3FFF 0 0 0 (twoWords 6 ++ twoWords 9), 9, inv_of (by decide +kernel), good_of (by decide +kernel), by decide +kernel⟩,
   ⟨wMem 5 0x20 [{ wDec with tree := 0x20 }], 1, wFr 0x0D 0x3FFF 0 0 0 (twoWords 4), { wDec with tree := 0x20 }, 4, inv_of (by decide +kernel), rfl, by decide +kernel, by decide +kernel, by decide +kernel,
      rfl, rfl, rfl, rfl, good_of (by decide +kernel), rfl, by decide, rfl⟩,
   ⟨wMem 7 0x20 [{ wDec with tree := 0x20, ents := [⟨9, true, false⟩] }], 1, wFr 0x0E 0x3FFF 0 0 0 (twoWords 4), { wDec with tree := 0x20, ents := [⟨9, true, false⟩] }, 4, inv_of (by decide +kernel), rfl,
      by decide +kernel, by decide +kernel, by decide +kernel, rfl, rfl, rfl, rfl, rfl, good_of (by decide +kernel), rfl, by decide, rfl⟩,
   ⟨wMem 5 1 [], 1, wFr 0x0F 0x3FFF 0 0 0 (twoWords 4), 4, inv_of (by decide +kernel), rfl, by decide +kernel, by decide +kernel, by decide +kernel, by decide +kernel, good_of (by decide +kernel), rfl, by decide, rfl⟩⟩

/-- The security block changed. -/
def wSec (f : Sec → Sec) (now : Nat) : State := { wH (fun x => { x with gsh := true }) with sec := f Sec.reset, now := now }
/-- A burst to secure SRAM. -/
def wXr : XReq := ⟨1, ⟨2, some 8, .gs⟩, 2, 0x12000000, .read 4, 0, false, false, .cmd, none⟩
theorem test_wit_secure_sram : (∃ (s : State) (w : Who), s.ReachesGs w 0x400C0024 ∧ s.xb.busy[2] = none)
    ∧ (∃ (s : State) (w : Who) (r : XReq), s.ReachesGs w 0x400C0024 ∧ s.xb.busy[2] = some r ∧ s.Inv ∧ (s.reg 0x40030024).getLsbD 31 = false)
    ∧ (∃ (s : State) (w : Who) (a : Word), s.Inv ∧ s.Reaches w a.toNat true ∧ s.Reaches w a.toNat false ∧ 0x12000000 ≤ a.toNat ∧ a.toNat < 0x12010000 ∧ a.toNat % 4 = 0 ∧ s.sec.wipe ≠ none)
    ∧ (∃ (s : State) (w : Who) (a : Word), s.Inv ∧ s.Reaches w a.toNat true ∧ s.Reaches w a.toNat false ∧ 0x12000000 ≤ a.toNat ∧ a.toNat < 0x12010000 ∧ a.toNat % 4 = 0 ∧ s.sec.wipe = none ∧
      isG (s.carried w).mode = false)
    ∧ ∃ (s : State) (w : Who) (a : Word), s.Inv ∧ s.Reaches w a.toNat true ∧ s.Reaches w a.toNat false ∧ 0x12000000 ≤ a.toNat ∧ a.toNat < 0x12010000 ∧ a.toNat % 4 = 0 ∧ s.sec.wipe = none ∧
      isG (s.carried w).mode = true :=
  ⟨⟨wS, wG, gs_of (by decide +kernel), rfl⟩,
   ⟨{ wS with xb := { wS.xb with busy := wS.xb.busy.set 2 (some wXr) } }, wG, wXr, gs_of (by decide +kernel), rfl, inv_of (by decide +kernel), by decide +kernel⟩, ⟨wSec (fun x => { x with wipe := some 0 }) 0, wG, 0x1200FFFC, inv_of (by decide +kernel), reaches_of (by decide +kernel), reaches_of (by decide +kernel), by decide +kernel⟩,
   ⟨wS, wP, 0x12000000, inv_of (by decide +kernel), reaches_of (by decide +kernel), reaches_of (by decide +kernel), by decide +kernel⟩,
   ⟨wS, wG, 0x1200FFFC, inv_of (by decide +kernel), reaches_of (by decide +kernel), reaches_of (by decide +kernel), by decide +kernel⟩⟩

theorem test_wit_life_cycle : (∃ (s : State) (w : Who) (x : Word) (n : Nat), s.Inv ∧ s.ReachesGs w 0x400C0004 ∧ fld x 0 16 = 0xB700 + n ∧ s.sec.cycle < 4 ∧
      (n = s.sec.cycle + 1 ∨ n = 4) ∧ s.sec.adv = none)
    ∧ (∀ now ∈ [1000000, 1000001], ∃ (s : State) (w : Who) (x : Word) (n t : Nat), s.Inv ∧ s.ReachesGs w 0x400C0004 ∧ fld x 0 16 = 0xB700 + n ∧ s.sec.cycle < 4 ∧
      (n = s.sec.cycle + 1 ∨ n = 4) ∧ s.sec.adv = some (s.carried w, x, t) ∧ s.now = t + now ∧ s.xb.busy[2] = none)
    ∧ ∃ (s : State) (w : Who) (x : Word) (n : Nat), s.Inv ∧ s.ReachesGs w 0x400C0004 ∧ fld x 0 16 = 0xB700 + n ∧ ¬ (s.sec.cycle < 4 ∧ (n = s.sec.cycle + 1 ∨ n = 4)) :=
  ⟨⟨wS, wG, 0xB702, 2, inv_of (by decide +kernel), gs_of (by decide +kernel), by decide +kernel⟩,
   by
    intro n hn
    simp only [List.mem_cons, List.not_mem_nil, or_false] at hn
    rcases hn with rfl | rfl
    · exact ⟨wSec (fun x => { x with adv := some (wG, 0xB704, 0) }) 1000000, wG, 0xB704, 4, 0, inv_of (by decide +kernel), gs_of (by decide +kernel), by decide +kernel⟩
    · exact ⟨wSec (fun x => { x with adv := some (wG, 0xB704, 0) }) 1000001, wG, 0xB704, 4, 0, inv_of (by decide +kernel), gs_of (by decide +kernel), by decide +kernel⟩,
   ⟨wS, wG, 0xB703, 3, inv_of (by decide +kernel), gs_of (by decide +kernel), by decide +kernel⟩⟩

theorem test_wit_debug_unlock : (∀ l, ∃ (s : State) (w : Who) (x : Word), s.Inv ∧ s.ReachesGs w 0x400C0090 ∧ x.getLsbD 0 = true ∧ s.sec.busy = false ∧ s.sec.lockd = l)
    ∧ (∃ (s : State) (w : Who), s.Inv ∧ s.Reaches w 0x400C0090 true ∧ w.master = 14 ∧ s.sec.cycle ≠ 4)
    ∧ ∃ (s : State) (key text : List Byte) (good : Bool), s.sec.busy = true ∧ key = s.secBytes 0x0C0 16 ∧
      text = s.sec.chal.toList.flatMap (fun c => leBytes 4 c.toNat) ++ leBytes 4 (Config.suid 0).toNat ++ leBytes 4 (Config.suid 1).toNat ∧
      (good = true ↔ sha256 key = Config.otpKey 3 ∧ P256.verify (sha256 text) (s.secBytes 0x050 16) key = true) := by
  refine ⟨fun l => ?_, ⟨{ wS with host := { HostSt.reset with ir := 0x10 } }, ⟨14, none, .gs⟩, inv_of (by decide +kernel), reaches_of (by decide +kernel), by decide +kernel⟩, ?_⟩
  · cases l
    · exact ⟨wS, wG, 1, inv_of (by decide +kernel), gs_of (by decide +kernel), by decide +kernel⟩
    · exact ⟨wSec (fun x => { x with lockd := true }) 0, wG, 1, inv_of (by decide +kernel), gs_of (by decide +kernel), by decide +kernel⟩
  · classical
    exact ⟨wSec (fun x => { x with busy := true }) 0, _, _, decide _, rfl, rfl, rfl, decide_eq_true_iff⟩

theorem test_wit_tamper : (∃ (s : State) (n : Fin 4) (h : Hid), s.Inv ∧ s.sec.tamper.getLsbD n.val = false ∧ (s.reg 0x400C0020).getLsbD n.val = true ∧ (s.hearth h).gsh = true)
    ∧ (∃ (s : State) (n : Fin 4), s.Inv ∧ s.sec.tamper.getLsbD n.val = false ∧ n = 0 ∧ s.sec.cycle = 2)
    ∧ (∃ (s : State) (n : Fin 4), s.Inv ∧ s.sec.tamper.getLsbD n.val = false ∧ (s.reg 0x400C0020).getLsbD n.val = false ∧ ¬ (n = 0 ∧ s.sec.cycle = 2)) :=
  ⟨⟨{ wSec id 0 with regs := [(0x400C0020, 8)] }, 3, 0, inv_of (by decide +kernel), by decide +kernel⟩, ⟨wSec (fun x => { x with cycle := 2 }) 0, 0, inv_of (by decide +kernel), by decide +kernel⟩,
   ⟨wSec id 0, 3, inv_of (by decide +kernel), by decide +kernel⟩⟩


/-! ## Witnesses: patterns, start-up and reblock (16)

A pattern of four sections, KEY, ENTRY, an empty PROG for stack 0 and DAMP, in slot 0, signed with the private key 1. Whether the
hash of its key is the one in OTP and whether slot 0 is on the flash is for opaque constants to say: these are hypotheses, and so is
that its signature verifies, which the kernel would take long to compute. -/

/-- The words of the pattern that are not 0. -/
def patList : List (Nat × Word) :=
  [(0x0, 0x54505842), (0x4, 0x10001), (0x8, 0x1340), (0xC, 0x4), (0x14, 0x7), (0x40, 0x4001), (0x44, 0x20002), (0x48, 0x3)]
  ++ [(0x4C, 0x100005), (0xC0, 0xF2D1176B), (0xC4, 0x47422CE1), (0xC8, 0xE5E6BCF8), (0xCC, 0xF240A463), (0xD0, 0x817D0377), (0xD4, 0xA033EB2D), (0xD8, 0x4539A1F4)]
  ++ [(0xDC, 0x96C298D8), (0xE0, 0x8BDB1674), (0xE4, 0xBBBF7DCE), (0xE8, 0x2EDE244A), (0xEC, 0x69D42E06), (0xF0, 0xE5858233), (0xF4, 0xE546AA9), (0xF8, 0xC09460F9)]
  ++ [(0xFC, 0xCC082155), (0x100, 0xF2D1176B), (0x104, 0x47422CE1), (0x108, 0xE5E6BCF8), (0x10C, 0xF240A463), (0x110, 0x817D0377), (0x114, 0xA033EB2D), (0x118, 0x4539A1F4)]
  ++ [(0x11C, 0x96C298D8), (0x120, 0xE242E34F), (0x124, 0x9B7F1AFE), (0x128, 0x4AEBE78E), (0x12C, 0x169E0F7C), (0x130, 0x5733CE2B), (0x134, 0xCE5E316B), (0x138, 0x6840B6CB)]
  ++ [(0x13C, 0xF551BF37), (0x140, 0x8000), (0x144, 0x10000), (0xCD0, 0x10100E6), (0xCD4, 0x101)]

def patWord (o : Nat) : Word := (patList.lookup o).getD 0

def patByte (i : Nat) : Byte := BitVec.ofNat 8 ((patWord (i - i % 4)).toNat / 256 ^ (i % 4))

/-- A state with `n` bytes of the pattern in slot 0. -/
def wPatN (n : Nat) (s : State) : State := s.setBytes (flashKey 0) ((List.range n).map patByte)
abbrev wPat (s : State) : State := wPatN 0x1340 s

theorem wPat_byte (n : Nat) (s : State) (h : Memory.wf s.mem = true) (i : Nat) (hi : i < n) : (wPatN n s).byte (flashKey i) = patByte i := by
  have hl : ((List.range n).map patByte).length = n := by simp
  have h1 : flashKey 0 ≤ flashKey i ∧ flashKey i < flashKey 0 + ((List.range n).map patByte).length := by
    rw [hl]; unfold flashKey; omega
  have h2 : flashKey i - flashKey 0 = i := by unfold flashKey; omega
  rw [wPatN, State.byte_setBytes _ _ _ _ h, if_pos h1, h2]
  simp [List.getD, hi]

theorem wPat_patW (n : Nat) (s : State) (h : Memory.wf s.mem = true) (o : Nat) (ho : o % 4 = 0) (hi : o + 4 ≤ n) :
    (wPatN n s).patW false o = patWord o := by
  have e : ∀ j, j < 4 → (wPatN n s).byte (flashKey (0 + o) + j) = BitVec.ofNat 8 ((patWord o).toNat / 256 ^ j) := by
    intro j hj
    have hk : flashKey (0 + o) + j = flashKey (o + j) := by unfold flashKey; omega
    rw [hk, wPat_byte _ s h _ (by omega), patByte]
    have h1 : o + j - (o + j) % 4 = o := by omega
    have h2 : (o + j) % 4 = j := by omega
    rw [h1, h2]
  have hl := (patWord o).isLt
  simp only [State.patW, slotBase, Bool.false_eq_true, if_false, State.rd32, State.bytes]
  have h0 := e 0 (by omega)
  have h1 := e 1 (by omega)
  have h2 := e 2 (by omega)
  have h3 := e 3 (by omega)
  rw [Nat.add_zero] at h0
  rw [h0, h1, h2, h3]
  simp only [leNat, w32, BitVec.toNat_ofNat]
  apply BitVec.eq_of_toNat_eq
  rw [BitVec.toNat_ofNat]
  omega

/-- The sections of the pattern. -/
def patSects : List Sect := [⟨0, 1, 0, 0, 64, 0x100⟩, ⟨1, 2, 0, 0, 512, 0x140⟩, ⟨2, 3, 0, 0, 0, 0x340⟩, ⟨3, 5, 0, 0, 0x1000, 0x340⟩]

theorem wPat_sects (n : Nat) (hm : 0x50 ≤ n) (s : State) (h : Memory.wf s.mem = true) : (wPatN n s).sects false = patSects := by
  have p := wPat_patW n s h
  have hn : (wPatN n s).patNsec false = 4 := by
    rw [State.patNsec, p 0xC (by decide) (by omega)]
    decide
  have e0 : patWord (0x40 + 4 * 0) = 0x4001 := by decide
  have e1 : patWord (0x40 + 4 * (0 + 1)) = 0x20002 := by decide
  have e2 : patWord (0x40 + 4 * (0 + 1 + 1)) = 3 := by decide
  have e3 : patWord (0x40 + 4 * (0 + 1 + 1 + 1)) = 0x100005 := by decide
  rw [State.sects, hn]
  simp only [State.sectsFrom, p _ (by decide : (0x40 + 4 * 0) % 4 = 0) (by omega), p _ (by decide : (0x40 + 4 * (0 + 1)) % 4 = 0) (by omega),
    p _ (by decide : (0x40 + 4 * (0 + 1 + 1)) % 4 = 0) (by omega), p _ (by decide : (0x40 + 4 * (0 + 1 + 1 + 1)) % 4 = 0) (by omega), e0, e1, e2, e3]
  decide +kernel

theorem headErr_none {s : State} {b : Bool} (h1 : slotThere b = true) (h2 : s.patW b 0 = 0x54505842) (h3 : fld (s.patW b 4) 0 16 = 1) (h4 : lcOk (s.patLc b) = true)
    (h5 : fld (s.patW b 4) 24 8 = 0) (h6 : s.patLen b % 16 = 0) (h7 : within 256 (s.patLen b) 0x1000000 = true) (h8 : within 1 (s.patNsec b) 32 = true)
    (h9 : s.patKey b < 3) (h10 : s.sec.rev.getLsbD (s.patKey b) = false) (h12 : fld (s.patW b 0xC) 16 16 = 0)
    (h13 : (List.range 10).find? (fun i => s.patW b (0x18 + 4 * i) != 0) = none) (h14 : badSect [] (s.sects b) = none) (h15 : sectsThere (s.sects b) = true)
    (h16 : (List.range 32).find? (fun i => decide (s.patNsec b ≤ i) && s.patW b (0x40 + 4 * i) != 0) = none)
    (h17 : s.patLen b = 256 + (s.sects b).foldl (fun (n : Nat) (x : Sect) => n + x.size) 0) : s.headErr b = none := by
  unfold State.headErr
  dsimp only
  rw [if_neg (by simp [h1]), if_neg (by simp [h2]), if_neg (by simp [h3]), if_neg (by simp [h4]), if_neg (by simp [h5]), if_neg (by simp [h6, h7]), if_neg (by simp [h8]),
    if_neg (by simp [h10]; omega), if_neg (by simp [h12]), h13]
  dsimp only
  rw [h14]
  dsimp only
  rw [if_neg (by simp [h15]), h16]
  dsimp only
  rw [if_neg (by simpa using h17)]

/-- The header passes every check, where slot 0 is on the flash. -/
theorem wPat_headErr (n : Nat) (hm : 0xC0 ≤ n) (s : State) (h : Memory.wf s.mem = true) (hs : slotThere false = true) (hr : s.sec.rev = 0) : (wPatN n s).headErr false = none := by
  have p := wPat_patW n s h
  have hrev : (wPatN n s).sec.rev = 0 := by rw [wPatN, State.setBytes_eq]; exact hr
  have hz : (List.range 10).find? (fun i => (wPatN n s).patW false (0x18 + 4 * i) != 0) = none := by
    rw [List.find?_eq_none]
    intro i hi
    have hi := List.mem_range.mp hi
    have hw : ∀ i < 10, patWord (0x18 + 4 * i) = 0 := by decide
    rw [p _ (by omega) (by omega), hw i hi]
    decide
  have hz2 : (List.range 32).find? (fun i => decide (4 ≤ i) && (wPatN n s).patW false (0x40 + 4 * i) != 0) = none := by
    rw [List.find?_eq_none]
    intro i hi
    have hi := List.mem_range.mp hi
    have hw : ∀ i < 32, 4 ≤ i → patWord (0x40 + 4 * i) = 0 := by decide
    rw [p _ (by omega) (by omega)]
    by_cases h4 : 4 ≤ i
    · rw [hw i hi h4]
      simp
    · simp [h4]
  have w0 : (wPatN n s).patW false 0 = 0x54505842 := p 0 (by decide) (by omega)
  have w4 : (wPatN n s).patW false 4 = 0x10001 := p 4 (by decide) (by omega)
  have wC : (wPatN n s).patW false 0xC = 4 := p 0xC (by decide) (by omega)
  have hlen : (wPatN n s).patLen false = 0x1340 := by rw [State.patLen, p 8 (by decide) (by omega)]; decide
  have hn : (wPatN n s).patNsec false = 4 := by rw [State.patNsec, wC]; decide
  have hk : (wPatN n s).patKey false = 0 := by rw [State.patKey, wC]; decide
  have hl : (wPatN n s).patLc false = 1 := by rw [State.patLc, w4]; decide
  have hsum : 0x1340 = 256 + patSects.foldl (fun (n : Nat) (x : Sect) => n + x.size) 0 := by decide +kernel
  refine headErr_none hs w0 (by rw [w4]; decide) (by rw [hl]; rfl) (by rw [w4]; decide) (by rw [hlen]) (by rw [hlen]; decide +kernel) (by rw [hn]; decide)
    (by rw [hk]; decide) (by rw [hrev]; simp) (by rw [wC]; decide) hz (by rw [wPat_sects n (by omega) s h]; decide) (by rw [wPat_sects n (by omega) s h]; decide) (by rw [hn]; exact hz2)
    (by rw [hlen, wPat_sects n (by omega) s h]; exact hsum)

theorem setOutputOk_congr {f g : Nat → Word} (h : ∀ o, o % 4 = 0 → o < 0x1000 → f o = g o) (o : Nat) (ho : o < 96) : setOutputOk f o = setOutputOk g o := by
  have hc : fld (g (16 * o + 8)) 12 4 < 16 := Nat.mod_lt _ (by decide)
  have hp : (if o % 2 = 0 then o + 1 else o - 1) < 96 := by split <;> omega
  unfold setOutputOk
  dsimp only
  rw [h (16 * o) (by omega) (by omega), h (16 * o + 8) (by omega) (by omega), h (16 * o + 12) (by omega) (by omega),
    h (16 * (if o % 2 = 0 then o + 1 else o - 1) + 8) (by omega) (by omega), h (0x9A0 + 4 * fld (g (16 * o + 8)) 12 4) (by omega) (by omega)]

/-- Validity of a set depends on its words alone. -/
theorem setValid_congr {f g : Nat → Word} (h : ∀ o, o % 4 = 0 → o < 0x1000 → f o = g o) : setValid f = setValid g := by
  have all : ∀ (n : Nat) (p q : Nat → Bool), (∀ i < n, p i = q i) → (List.range n).all p = (List.range n).all q := by
    intro n p q hh
    rw [Bool.eq_iff_iff, List.all_eq_true, List.all_eq_true]
    constructor
    · intro a i hi; rw [← hh i (List.mem_range.mp hi)]; exact a i hi
    · intro a i hi; rw [hh i (List.mem_range.mp hi)]; exact a i hi
  unfold setValid
  congr 1
  · congr 1
    · congr 1
      · congr 1
        · congr 1
          · congr 1
            · congr 1
              · congr 1
                · exact all _ _ _ (fun i hi => setOutputOk_congr h i hi)
                · refine all _ _ _ (fun i hi => ?_)
                  unfold setChannelOk
                  rw [h _ (by omega) (by omega), h (0x604 + 16 * i) (by omega) (by omega), h (0x608 + 16 * i) (by omega) (by omega), h (0x60C + 16 * i) (by omega) (by omega)]
              · refine all _ _ _ (fun i hi => ?_)
                have e1 : (List.range 96).filter (fun o => fld (f (16 * o + 8)) 12 4 == i) = (List.range 96).filter (fun o => fld (g (16 * o + 8)) 12 4 == i) :=
                  List.filter_congr (fun o ho => by rw [h _ (by omega) (by have := List.mem_range.mp ho; omega)])
                unfold setCtOk
                rw [e1]
                have e2 : ((List.range 96).filter (fun o => fld (g (16 * o + 8)) 12 4 == i)).map (fun o => fld (f (16 * o + 8)) 6 2)
                    = ((List.range 96).filter (fun o => fld (g (16 * o + 8)) 12 4 == i)).map (fun o => fld (g (16 * o + 8)) 6 2) :=
                  List.map_congr_left (fun o ho => by rw [h _ (by omega) (by have := List.mem_range.mp (List.mem_filter.mp ho).1; omega)])
                rw [e2]
            · exact all _ _ _ (fun i hi => by rw [h _ (by omega) (by omega)])
          · exact all _ _ _ (fun i hi => by rw [h _ (by omega) (by omega)])
        · rw [h _ (by decide) (by decide)]
      · exact all _ _ _ (fun i hi => by rw [h _ (by omega) (by omega)])
    · unfold setGlobalOk
      rw [h 0x990 (by decide) (by decide), h 0x994 (by decide) (by decide), h 0x998 (by decide) (by decide), h 0x99C (by decide) (by decide)]
  · exact all _ _ _ (fun i hi => by rw [h _ (by omega) (by omega)])

/-- Its body passes every check that does not rest on the hash and the signature. -/
theorem wPat_bodyErr (s : State) (h : Memory.wf s.mem = true) (hk : sha256 ((wPat s).keyBytes false) = Config.otpKey 0)
    (he : P256.verify (sha256 ((wPat s).signed false)) ((wPat s).patSig false) ((wPat s).keyBytes false) = true) :
    (wPat s).bodyErr false = none := by
  have p : ∀ o, o % 4 = 0 → o + 4 ≤ 0x1340 → (wPat s).patW false o = patWord o := wPat_patW 0x1340 s h
  have hs : (wPat s).sects false = patSects := wPat_sects 0x1340 (by decide) s h
  have hkey : (wPat s).patKey false = 0 := by rw [State.patKey, p 0xC (by decide) (by decide)]; decide
  have hv : setValid ((wPat s).dampW false) = true := by
    rw [setValid_congr (g := fun o => patWord (0x340 + o)) (fun o ho hi => by
      have : (wPat s).dampW false o = (wPat s).patW false (0x340 + o) := by rw [State.dampW, hs]; rfl
      rw [this]; exact p _ (by omega) (by omega))]
    decide +kernel
  have hr : (wPat s).regPairs false = [] := by rw [State.regPairs, hs]; rfl
  have ha : (wPat s).entryAt false = flashKey 0x140 := by rw [State.entryAt, hs]; rfl
  have hw : ∀ (a : Hid) (i : Nat), i < 2 → (wPat s).rd32 (flashKey 0x140 + 8 * a.val + 4 * i) = patWord (0x140 + 8 * a.val + 4 * i) := by
    intro a i hi
    rw [← p (0x140 + 8 * a.val + 4 * i) (by omega) (by omega)]
    have : flashKey (slotBase false + (0x140 + 8 * a.val + 4 * i)) = flashKey 0x140 + 8 * a.val + 4 * i := by
      simp only [slotBase, flashKey, Bool.false_eq_true, if_false]; omega
    rw [State.patW, this]
  have hen : (wPat s).entriesOk (flashKey 0x140) = true := by
    have e0 : ∀ a : Hid, (wPat s).rd32 (flashKey 0x140 + 8 * a.val + 4 * 0) = patWord (0x140 + 8 * a.val + 4 * 0) := fun a => hw a 0 (by decide)
    have e1 : ∀ a : Hid, (wPat s).rd32 (flashKey 0x140 + 8 * a.val + 4 * 1) = patWord (0x140 + 8 * a.val + 4 * 1) := fun a => hw a 1 (by decide)
    unfold State.entriesOk
    simp only [e0, e1]
    decide +kernel
  have hru : (wPat s).runsOk (flashKey 0x140) (progOf patSects) = true := by
    have e0 : ∀ a : Hid, (wPat s).rd32 (flashKey 0x140 + 8 * a.val) = patWord (0x140 + 8 * a.val) := fun a => hw a 0 (by decide)
    unfold State.runsOk
    simp only [e0]
    decide +kernel
  rw [State.bodyErr, hkey, if_neg (by rw [hk]; simp), he, hv, hr, ha, hs, hen, hru]
  rfl

/-- Slot 0 staged, with a state of the staging engine. -/
def wStg (f : Pat → Pat) (s : State) : State := { s with pat := f { s.pat with stage := some false } }

/-- The same while a reblock is armed. -/
def wStgA : State := wStg id { wS with regs := [(0x400B003C, 1)] }
/-- The first reading of the flash meets no error before byte `n`. -/
def CleanTo (n : Nat) : Prop := ∀ f, Config.flashFail wS.free = some f → n ≤ f

theorem wPatN_good (n : Nat) {s : State} (h : s.Inv) : (wPatN n s).Inv ∧ (wPatN n s).pat = s.pat ∧ (wPatN n s).free = s.free ∧ (wPatN n s).regs = s.regs := by
  have e : wPatN n s = _ := State.setBytes_eq _ _ _
  refine ⟨⟨?_, ?_, ?_, ?_⟩, ?_, ?_, ?_⟩
  · exact State.setBytes_wf _ _ _ h.mem
  all_goals rw [e]
  · exact h.regs
  · exact h.cr
  · exact h.gens

theorem test_wit_staging : (∃ (s : State) (w : Who), s.ReachesGs w 0x400B0020 ∧ s.pat.stage = none)
    ∧ (∃ (s : State) (w : Who), s.Inv ∧ s.ReachesGs w 0x400B0020 ∧ s.pat.stage ≠ none)
    ∧ (slotThere false = false → ∃ (s : State) (b : Bool), s.Inv ∧ s.pat.stage = some b ∧ slotThere b = false)
    ∧ (∀ f, slotThere false = true → Config.flashFail wS.free = some f → f < 0x1340 →
        ∃ (s : State) (b : Bool), s.Inv ∧ s.pat.stage = some b ∧ slotThere b = true ∧ Config.flashFail s.free = some f ∧ (f < 256 ∨ (s.headErr b = none ∧ f < s.patLen b)))
    ∧ (CleanTo 256 → ∃ (s : State) (b : Bool) (c o : Nat), s.Inv ∧ s.pat.stage = some b ∧ s.ReadsTo 256 ∧ s.headErr b = some (c, o))
    ∧ (slotThere false = true → CleanTo 0x1340 → ∃ (s : State) (b : Bool) (c : Nat × Nat), s.Inv ∧ s.pat.stage = some b ∧ s.ReadsTo (s.patLen b) ∧
        s.headErr b = none ∧ s.bodyErr b = some c)
    ∧ (∀ t ∈ [wStg id wS, wStgA], slotThere false = true → CleanTo 0x1340 → sha256 ((wPat t).keyBytes false) = Config.otpKey 0 →
      P256.verify (sha256 ((wPat t).signed false)) ((wPat t).patSig false) ((wPat t).keyBytes false) = true →
      ∃ (s : State) (b : Bool), s.Inv ∧ s.pat.stage = some b ∧ s.ReadsTo (s.patLen b) ∧ s.headErr b = none ∧ s.bodyErr b = none ∧ s.armed = t.armed)
    ∧ (wStg id wS).armed = false ∧ wStgA.armed = true := by
  have hw : Memory.wf (wStg id wS).mem = true := by decide
  have hi : (wStg id wS).Inv := inv_of (by decide +kernel)
  have hp : ∀ n, (wPatN n (wStg id wS)).Inv ∧ (wPatN n (wStg id wS)).pat.stage = some false := by
    intro n
    obtain ⟨a, b, -, -⟩ := wPatN_good n hi
    exact ⟨a, by rw [b]; rfl⟩
  have hlen : ∀ (n : Nat) (t : State), 0x340 ≤ n → Memory.wf t.mem = true → (wPatN n t).patLen false = 0x1340 := by
    intro n t hn ht
    rw [State.patLen, wPat_patW n t ht 8 (by decide) (by omega)]; decide
  refine ⟨⟨wS, wG, gs_of (by decide +kernel), by decide +kernel⟩, ⟨wStg id wS, wG, inv_of (by decide +kernel), gs_of (by decide +kernel), by decide +kernel⟩, ?_, ?_, ?_, ?_, ?_,
    by decide +kernel, by decide +kernel⟩
  · exact fun hs => ⟨wStg id wS, false, hi, rfl, hs⟩
  · intro f hs hf hl
    obtain ⟨a, b, c, -⟩ := wPatN_good 0x1340 hi
    exact ⟨wPat (wStg id wS), false, a, by rw [b]; rfl, hs, by rw [c]; exact hf, .inr ⟨wPat_headErr 0x1340 (by decide) _ hw hs (by decide), by rw [hlen _ _ (by decide) hw]; exact hl⟩⟩
  · intro hc
    by_cases hs : slotThere false = true
    · refine ⟨wStg id wS, false, 2, 0, hi, rfl, hc, ?_⟩
      have : (wStg id wS).patW false 0 ≠ 0x54505842 := by decide +kernel
      unfold State.headErr
      dsimp only
      rw [if_neg (by simp [hs]), if_pos this]
    · refine ⟨wStg id wS, false, 1, 0, hi, rfl, hc, ?_⟩
      simp [State.headErr, hs]
  · intro hs hc0
    have hh := wPat_headErr 0x340 (by decide) (wStg id wS) hw hs (by decide)
    have hv : setValid ((wPatN 0x340 (wStg id wS)).dampW false) = false := by
      have hz : (wPatN 0x340 (wStg id wS)).dampW false 0x98C = 0xFFFFFFFF := by
        rw [State.dampW, wPat_sects 0x340 (by decide) _ hw]
        have e : ∀ i, 0x340 ≤ i → i < 0x1000000 → (wPatN 0x340 (wStg id wS)).byte (flashKey i) = 0xFF := by
          intro i h1 h2
          have hl : ((List.range 0x340).map patByte).length = 0x340 := by simp
          have h1 : ¬ (flashKey 0 ≤ flashKey i ∧ flashKey i < flashKey 0 + ((List.range 0x340).map patByte).length) := by
            rw [hl]; unfold flashKey; omega
          rw [wPatN, State.byte_setBytes _ _ _ _ hw, if_neg h1]
          have : memDefault (flashKey i) = 0xFF := by
            unfold memDefault flashKey within
            rw [if_neg (by simp only [Bool.and_eq_true, decide_eq_true_eq]; omega), if_pos (by omega)]
          exact this
        have e0 := e 0xCCC (by decide) (by decide)
        have e1 := e 0xCCD (by decide) (by decide)
        have e2 := e 0xCCE (by decide) (by decide)
        have e3 := e 0xCCF (by decide) (by decide)
        show (wPatN 0x340 (wStg id wS)).rd32 (flashKey 0xCCC) = _
        simp only [State.rd32, State.bytes, show flashKey 0xCCC + 1 = flashKey 0xCCD from rfl, show flashKey 0xCCD + 1 = flashKey 0xCCE from rfl,
          show flashKey 0xCCE + 1 = flashKey 0xCCF from rfl, e0, e1, e2, e3]
        rfl
      unfold setValid
      rw [hz]
      simp
    have hb : ∃ c, (wPatN 0x340 (wStg id wS)).bodyErr false = some c := by
      unfold State.bodyErr
      rw [hv]
      split
      · exact ⟨_, rfl⟩
      · split
        · exact ⟨_, rfl⟩
        · exact ⟨_, rfl⟩
    obtain ⟨c, hc⟩ := hb
    exact ⟨_, false, c, (hp 0x340).1, (hp 0x340).2, by rw [hlen _ _ (by decide) hw]; intro f hf; rw [(wPatN_good 0x340 hi).2.2.1] at hf; exact hc0 f hf, hh, hc⟩
  · intro t ht hs hc0 hk he
    have ht' : Memory.wf t.mem = true ∧ t.Inv ∧ t.pat.stage = some false ∧ t.free = wS.free ∧ t.sec.rev = 0 := by
      simp only [List.mem_cons, List.not_mem_nil, or_false] at ht
      rcases ht with rfl | rfl <;> exact ⟨by decide, inv_of (by decide +kernel), rfl, rfl, by decide⟩
    obtain ⟨a, b, c, d⟩ := wPatN_good 0x1340 ht'.2.1
    exact ⟨wPat t, false, a, by rw [b]; exact ht'.2.2.1, by rw [hlen _ _ (by decide) ht'.1]; intro f hf; exact hc0 f (by rw [← ht'.2.2.2.1, ← c]; exact hf),
      wPat_headErr 0x1340 (by decide) _ ht'.1 hs ht'.2.2.2.2, wPat_bodyErr _ ht'.1 hk he, by unfold State.armed State.reg; rw [d]⟩

/-- A staged block, its shadow damper set and entry table with the words given, and the registers of the arm. -/
def wArm (damp entries : List (Nat × Word)) (r : List (Nat × Word)) (f : Pat → Pat) : State :=
  let s := entries.foldl (fun (s : State) (x : Nat × Word) => s.wr32 (0x38080000 + x.1) x.2) { wS with regs := r, pat := f { wS.pat with staged := true, sprog := 1 } }
  damp.foldl (fun (s : State) (x : Nat × Word) => s.wr32 (0x40052000 + x.1) x.2) s
def wGlob : List (Nat × Word) := [(0x990, 0x010100E6), (0x994, 0x101)]

/-- What an arm asks. -/
def armB (s : State) (w : Who) (ok : Bool) (e : Nat) : Bool :=
  invB s && reachesB s w 0x400B0038 true && decide ((s.carried w).mode = .gs) && decide (e = (s.reg 0x400B0030).toNat + fld (s.reg 0x400B0034) 0 16 * 2 ^ 32)
    && decide (ok = true ↔ s.pat.staged = true ∨ (s.sec.cycle = 1 ∧ s.pat.slc ≠ 0))

def ArmHyp (s : State) (w : Who) (ok : Bool) (e : Nat) : Prop :=
  s.Inv ∧ s.ReachesGs w 0x400B0038 ∧ e = (s.reg 0x400B0030).toNat + fld (s.reg 0x400B0034) 0 16 * 2 ^ 32 ∧
    (ok = true ↔ s.pat.staged = true ∨ (s.sec.cycle = 1 ∧ s.pat.slc ≠ 0))

theorem arm_of {s : State} {w : Who} {ok : Bool} {e : Nat} (h : armB s w ok e = true) : ArmHyp s w ok e := by
  simp only [armB, Bool.and_eq_true, decide_eq_true_eq] at h
  exact ⟨inv_of h.1.1.1.1, ⟨reaches_of h.1.1.1.2, h.1.1.2⟩, h.1.2, h.2⟩

theorem test_wit_arm : (∃ (s : State) (w : Who) (ok : Bool) (e : Nat), ArmHyp s w ok e ∧ ok = false)
    ∧ (∃ (s : State) (w : Who) (ok : Bool) (e : Nat), ArmHyp s w ok e ∧ ok = true ∧ s.pat.stage ≠ none)
    ∧ (∃ (s : State) (w : Who) (ok : Bool) (e : Nat), ArmHyp s w ok e ∧ ok = true ∧ s.pat.stage = none ∧ e < s.ep.cur + 2)
    ∧ (∃ (s : State) (w : Who) (ok : Bool) (e : Nat), ArmHyp s w ok e ∧ ok = true ∧ s.pat.stage = none ∧ s.ep.cur + 2 ≤ e ∧ s.setOk (!s.dsel) = false)
    ∧ (∃ (s : State) (w : Who) (ok : Bool) (e : Nat), ArmHyp s w ok e ∧ ok = true ∧ s.pat.stage = none ∧ s.ep.cur + 2 ≤ e ∧ s.setOk (!s.dsel) = true ∧
      s.shadowEntries = false)
    ∧ (∃ (s : State) (w : Who) (ok : Bool) (e : Nat), ArmHyp s w ok e ∧ ok = true ∧ s.pat.stage = none ∧ s.ep.cur + 2 ≤ e ∧ s.setOk (!s.dsel) = true ∧
      s.shadowEntries = true) :=
  ⟨⟨wSec (fun x => { x with cycle := 2 }) 0, wG, false, 0, arm_of (by decide +kernel), rfl⟩,
   ⟨wArm [] [] [] fun x => { x with stage := some true }, wG, true, 0, arm_of (by decide +kernel), rfl, by decide +kernel⟩,
   ⟨wArm [] [] [(0x400B0030, 1)] fun x => { x with staged := false, slc := 1 }, wG, true, 1, arm_of (by decide +kernel), by decide +kernel⟩,
   ⟨wArm [] [] [(0x400B0034, 1)] id, wG, true, 2 ^ 32, arm_of (by decide +kernel), by decide +kernel⟩,
   ⟨wArm wGlob [] [(0x400B0030, 2)] id, wG, true, 2, arm_of (by decide +kernel), by decide +kernel⟩,
   ⟨wArm wGlob [(0, 0x8000), (4, 0x10000)] [(0x400B0030, 2)] id, wG, true, 2, arm_of (by decide +kernel), by decide +kernel⟩⟩

theorem test_wit_disarm_and_commit : (∀ b, ∃ (s : State) (w : Who), s.Inv ∧ s.ReachesGs w 0x400B0038 ∧ (s.reg 0x400B003C).getLsbD 0 = b)
    ∧ ∀ td ∈ [1500000, 1500001], ∃ (s : State) (w : Who) (e : Nat) (ok : Bool), s.Inv ∧ s.ReachesGs w 0x400B0038 ∧
      e = (s.reg 0x400B0030).toNat + fld (s.reg 0x400B0034) 0 16 * 2 ^ 32 ∧
      (ok = true ↔ (s.reg 0x400B003C).getLsbD 0 = true ∧ e = s.pat.armE ∧ s.td + fld (s.reg 0x400B0048) 0 20 * 1000 ≤ s.ep.edge + (e - s.ep.cur) * s.ep.per * 1000) ∧
      s.td = td := by
  constructor
  · intro b
    cases b
    · exact ⟨wS, wG, inv_of (by decide +kernel), gs_of (by decide +kernel), by decide +kernel⟩
    · exact ⟨wArm [] [] [(0x400B003C, 0x101)] id, wG, inv_of (by decide +kernel), gs_of (by decide +kernel), by decide +kernel⟩
  · intro td htd
    simp only [List.mem_cons, List.not_mem_nil, or_false] at htd
    rcases htd with rfl | rfl
    · exact ⟨{ wEp id 1500000 with regs := [(0x400B0030, 6), (0x400B003C, 1), (0x400B0048, 500)], pat := { wS.pat with armE := 6 } }, wG, 6, true, inv_of (by decide +kernel),
        gs_of (by decide +kernel), by decide +kernel⟩
    · exact ⟨{ wEp id 1500001 with regs := [(0x400B0030, 6), (0x400B003C, 1), (0x400B0048, 500)], pat := { wS.pat with armE := 6 } }, wG, 6, false, inv_of (by decide +kernel),
        gs_of (by decide +kernel), by decide +kernel⟩

/-- At the edge of the armed epoch, with the reblock status given; hearth 5 alone runs, at the wait given. -/
def wSwap2 (r : Word) (wt : Wait) : State :=
  { wEp id 1000000 with
    regs := [(0x40040000, 1), (0x40040004, 1000), (0x400B003C, r)], pat := { wS.pat with armE := 5, slc := 1 }
    hearths := Vector.ofFn fun h : Hid => { Hearth.reset with run := if h.val = 5 then .running else .held, wait := wt, cr := [(0x04C, 0x80000005)] } }
theorem test_wit_swap : ∀ r ∈ [(1 : Word), 0x103, 3], ∃ (s : State), s.Inv ∧ s.ep.started = true ∧ s.pw.st < 2 ∧ s.ep.edge + s.ep.per * 1000 ≤ s.td ∧ s.ep.epdlGone = true ∧
    s.ep.copies = [] ∧ s.ep.resync = none ∧ s.ep.heldSeal = none ∧ s.ep.step = none ∧ (s.reg 0x40040000).getLsbD 2 = false ∧
    (s.reg 0x400B003C).getLsbD 0 = true ∧ s.pat.armE = s.ep.cur + 1 ∧ (∀ k : Fin 8, (s.stks[k]).patch = []) ∧ s.xb.busy[4] = none ∧ s.dm.vec = none ∧ s.afe.edge = false ∧
    ((s.reg 0x400B003C).getLsbD 8 = false ∨ (s.reg 0x400B003C).getLsbD 1 = true) ∧ (s.hearth 5).run = .running ∧ ∀ h, (s.hearth h).run = .running → s.Parked h := by
  intro r hr
  simp only [List.mem_cons, List.not_mem_nil, or_false] at hr
  rcases hr with rfl | rfl | rfl
  · refine ⟨wSwap2 1 .epwait, inv_of (by decide +kernel), ?_⟩; unfold State.Parked; decide +kernel
  · refine ⟨wSwap2 0x103 .epwait, inv_of (by decide +kernel), ?_⟩; unfold State.Parked; decide +kernel
  · refine ⟨wSwap2 3 .epwait, inv_of (by decide +kernel), ?_⟩; unfold State.Parked; decide +kernel

theorem test_wit_swap_missed : (∃ (s : State), s.Inv ∧ s.ep.started = true ∧ s.pw.st < 2 ∧ s.ep.edge + s.ep.per * 1000 ≤ s.td ∧ s.ep.epdlGone = true ∧
      s.ep.copies = [] ∧ s.ep.resync = none ∧ s.ep.heldSeal = none ∧ s.ep.step = none ∧ (s.reg 0x40040000).getLsbD 2 = false ∧
      (s.reg 0x400B003C).getLsbD 0 = true ∧ s.pat.armE = s.ep.cur + 1 ∧ (∀ k : Fin 8, (s.stks[k]).patch = []) ∧ s.xb.busy[4] = none ∧ s.dm.vec = none ∧ s.afe.edge = false ∧
      (s.reg 0x400B003C).getLsbD 8 = true ∧ (s.reg 0x400B003C).getLsbD 1 = false)
    ∧ ∀ r ∈ [(1 : Word), 0x103], ∃ (s : State) (h : Hid), s.Inv ∧ s.ep.started = true ∧ s.pw.st < 2 ∧ s.ep.edge + s.ep.per * 1000 ≤ s.td ∧ s.ep.epdlGone = true ∧
      s.ep.copies = [] ∧ s.ep.resync = none ∧ s.ep.heldSeal = none ∧ s.ep.step = none ∧ (s.reg 0x40040000).getLsbD 2 = false ∧
      (s.reg 0x400B003C).getLsbD 0 = true ∧ s.pat.armE = s.ep.cur + 1 ∧ (∀ k : Fin 8, (s.stks[k]).patch = []) ∧ s.xb.busy[4] = none ∧ s.dm.vec = none ∧ s.afe.edge = false ∧
      ((s.reg 0x400B003C).getLsbD 8 = false ∨ (s.reg 0x400B003C).getLsbD 1 = true) ∧ (s.hearth h).run = .running ∧ ¬ s.Parked h := by
  refine ⟨⟨wSwap2 0x101 .epwait, inv_of (by decide +kernel), by decide +kernel⟩, fun r hr => ?_⟩
  simp only [List.mem_cons, List.not_mem_nil, or_false] at hr
  rcases hr with rfl | rfl
  · refine ⟨wSwap2 1 .none, 5, inv_of (by decide +kernel), ?_⟩; unfold State.Parked; decide +kernel
  · refine ⟨wSwap2 0x103 .none, 5, inv_of (by decide +kernel), ?_⟩; unfold State.Parked; decide +kernel

theorem test_wit_swap_arrives : ∃ (s : State) (k : Fin 8) (h : Hid), s.Inv ∧ s.stackRuns k = true ∧ s.ep.started = true ∧ (s.stks[k]).epoch ≠ s.ep.cur ∧ (s.stks[k]).due = true ∧
    (s.stks[k]).patch = [] ∧ h.val / 8 = k.val ∧ ∀ h : Hid, (s.hearth h).wait ≠ .epwait :=
  ⟨{ wSwap2 1 .none with stks := (wSwap2 1 .none).stks.set 7 { (wSwap2 1 .none).stks[7] with due := true } }, 7, 56, inv_of (by decide +kernel), by decide +kernel⟩

/-- A flash command under way. -/
def wQ (c : Word) : State := { wS with regs := [(0x400B0064, 0x1234)], pat := { wS.pat with qcmd := some c } }
theorem test_wit_flash : (∀ x ∈ [(0x80400060 : Word), 0x804002C7], ∃ (s : State) (w : Who) (op : Byte) (no : Bool), s.Inv ∧ s.ReachesGs w 0x400B0060 ∧ fld x 8 2 ≠ 3 ∧ fld x 16 7 ≤ 64 ∧
      s.pat.qcmd = none ∧ op = BitVec.ofNat 8 (fld x 0 8) ∧ (no = true ↔ op = 0x60 ∨ op = 0xC7 ∨ ((Config.flashErase op ≠ 0 ∨ Config.flashProgram op = true) ∧ s.pw.hold = false
      ∧ ∃ a, s.flashAddr x = some a ∧ slotBase s.pat.aslot ≤ a ∧ a < slotBase s.pat.aslot + s.patLen s.pat.aslot)) ∧ no = true)
    ∧ (∀ x ∈ [(0x00400103 : Word), 0x80400020], ∃ (s : State) (w : Who) (op : Byte) (no : Bool), s.Inv ∧ s.ReachesGs w 0x400B0060 ∧ fld x 8 2 ≠ 3 ∧ fld x 16 7 ≤ 64 ∧
      s.pat.qcmd = none ∧ op = BitVec.ofNat 8 (fld x 0 8) ∧ (no = true ↔ op = 0x60 ∨ op = 0xC7 ∨ ((Config.flashErase op ≠ 0 ∨ Config.flashProgram op = true) ∧ s.pw.hold = false
      ∧ ∃ a, s.flashAddr x = some a ∧ slotBase s.pat.aslot ≤ a ∧ a < slotBase s.pat.aslot + s.patLen s.pat.aslot)) ∧ no = false)
    ∧ (∀ c ∈ [(0x80400103 : Word), 0x80400220], ∃ (s : State) (op : Byte) (z : Nat), s.Inv ∧ s.pat.qcmd = some c ∧ op = BitVec.ofNat 8 (fld c 0 8) ∧ z = Config.flashErase op ∧
      ∃ a, s.flashAddr c = some a)
    ∧ (∀ a ∈ [(0 : Word), 0x3FFFFFF], ∃ (s : State) (w : Who) (n : Fin 256), s.Inv ∧ a.toNat < 0x4000000 ∧ a.toNat % 256 + n.val < 256 ∧
      s.Reaches w (0x60000000 + a.toNat) false ∧ isG (s.carried w).mode = true)
    ∧ (∃ (s : State) (w : Who) (a : Word) (n : Fin 256), s.Inv ∧ a.toNat < 0x4000000 ∧ a.toNat % 256 + n.val < 256 ∧ s.Reaches w (0x60000000 + a.toNat) false ∧
      isG (s.carried w).mode = false)
    ∧ (∃ s : State, s.pat.qcmd ≠ none) ∧ (∃ s : State, s.pat.stage ≠ none)
    ∧ ∃ (s : State) (w : Who) (a : Word), s.Inv ∧ 0x60000000 ≤ a.toNat ∧ a.toNat < 0x64000000 ∧ a.toNat % 4 = 0 ∧ s.Reaches w a.toNat true := by
  refine ⟨fun x hx => ?_, fun x hx => ?_, fun c hc => ?_, fun a ha => ?_, ?_, ⟨wQ 3, by decide +kernel⟩, ⟨wStg id wS, by decide +kernel⟩,
    ⟨wS, wG, 0x63FFFFFC, inv_of (by decide +kernel), by decide, by decide, by decide, reaches_of (by decide +kernel)⟩⟩
  · simp only [List.mem_cons, List.not_mem_nil, or_false] at hx
    rcases hx with rfl | rfl
    · refine ⟨wS, wG, 0x60, true, inv_of (by decide +kernel), gs_of (by decide +kernel), by decide +kernel, by decide +kernel, by decide +kernel, by decide +kernel, ?_, rfl⟩
      simp
    · refine ⟨wS, wG, 0xC7, true, inv_of (by decide +kernel), gs_of (by decide +kernel), by decide +kernel, by decide +kernel, by decide +kernel, by decide +kernel, ?_, rfl⟩
      simp
  · simp only [List.mem_cons, List.not_mem_nil, or_false] at hx
    rcases hx with rfl | rfl
    · refine ⟨{ wS with pw := { wS.pw with hold := true } }, wG, 3, false, inv_of (by decide +kernel), gs_of (by decide +kernel), by decide +kernel, by decide +kernel, by decide +kernel,
        by decide +kernel, ?_, rfl⟩
      simp
    · refine ⟨wS, wG, 0x20, false, inv_of (by decide +kernel), gs_of (by decide +kernel), by decide +kernel, by decide +kernel, by decide +kernel, by decide +kernel, ?_, rfl⟩
      have : wS.flashAddr 0x80400020 = none := by decide
      rw [this]
      simp
  · simp only [List.mem_cons, List.not_mem_nil, or_false] at hc
    rcases hc with rfl | rfl
    · exact ⟨wQ 0x80400103, 3, _, inv_of (by decide +kernel), by decide +kernel, by decide +kernel, rfl, 0x1234, by decide +kernel⟩
    · exact ⟨wQ 0x80400220, 0x20, _, inv_of (by decide +kernel), by decide +kernel, by decide +kernel, rfl, 0x1234, by decide +kernel⟩
  · simp only [List.mem_cons, List.not_mem_nil, or_false] at ha
    rcases ha with rfl | rfl
    · exact ⟨wS, wG, 255, inv_of (by decide +kernel), by decide, by decide, reaches_of (by decide +kernel), by decide +kernel⟩
    · exact ⟨wS, wG, 0, inv_of (by decide +kernel), by decide, by decide, reaches_of (by decide +kernel), by decide +kernel⟩
  · exact ⟨wS, wP, 0x100, 3, inv_of (by decide +kernel), by decide, by decide, reaches_of (by decide +kernel), by decide +kernel⟩

/-! ## Witnesses: operating points, sleep and wake (17) -/

/-- Power state and PWR, CLK and AON registers given. -/
def wPw (f : Pw → Pw) (r : List (Nat × Word)) (now : Nat) : State := { wH (fun x => { x with gsh := true }) with pw := f { wS.pw with vin := 850 }, regs := r, now := now }
theorem test_wit_op_change : (∀ x ∈ [((0x11111111 : Word), 1, 0, 850, (0 : Fin 8), 0), (0x55555555, 5, 0, 950, 3, 4), (0, 0, 0, 950, 7, 3), (0, 0, 0, 850, 7, 5), (0, 0, 8, 850, 3, 5)],
      ∃ (s : State) (w : Who) (k op : Fin 8) (e : Nat), s.Inv ∧ s.ReachesGs w 0x40010004 ∧ s.OpsSettled k ∧ s.pw.st < 2 ∧ op.val < 6 ∧
      e = (if s.pw.cap.getLsbD k.val then min op.val 4 else op.val) ∧ s.reg 0x40010004 = x.1 ∧ s.opOf k.val = x.2.1 ∧ s.pw.cap.toNat = x.2.2.1 ∧ s.pw.vin = x.2.2.2.1 ∧
      k = x.2.2.2.2.1 ∧ op.val = x.2.2.2.2.2)
    ∧ (∃ (s : State) (k : Fin 8) (e : Nat), e ≤ s.opOf k.val ∧ e ≠ s.opOf k.val) ∧ (∃ (s : State) (k : Fin 8) (e : Nat), s.opOf k.val < e ∧ s.vinFor k e ≤ s.pw.vin)
    ∧ (∃ (s : State) (k : Fin 8) (e : Nat), s.opOf k.val < e ∧ s.pw.vin < s.vinFor k e)
    ∧ ∀ op ∈ [(6 : Fin 8), 7], ∃ (s : State) (w : Who) (o : Fin 8), s.Inv ∧ s.ReachesGs w 0x40010004 ∧ 6 ≤ o.val ∧ o = op := by
  refine ⟨fun x hx => ?_, ⟨wPw id [(0x40010008, 0x11111111)] 0, 0, 0, by decide +kernel⟩, ⟨wPw (fun y => { y with vin := 950 }) [] 0, 0, 3, by decide +kernel⟩,
    ⟨wPw id [] 0, 0, 5, by decide +kernel⟩, fun op hop => ?_⟩
  · simp only [List.mem_cons, List.not_mem_nil, or_false] at hx
    rcases hx with rfl | rfl | rfl | rfl | rfl
    · refine ⟨wPw id [(0x40010004, 0x11111111), (0x40010008, 0x11111111)] 0, wG, 0, 0, _, inv_of (by decide +kernel), gs_of (by decide +kernel), ?_, by decide, by decide, rfl, by decide +kernel⟩
      unfold State.OpsSettled; decide +kernel
    · refine ⟨wPw (fun y => { y with vin := 950 }) [(0x40010004, 0x55555555), (0x40010008, 0x55555555)] 0, wG, 3, 4, _, inv_of (by decide +kernel), gs_of (by decide +kernel), ?_, by decide, by decide, rfl,
        by decide +kernel⟩
      unfold State.OpsSettled; decide +kernel
    · refine ⟨wPw (fun y => { y with vin := 950 }) [] 0, wG, 7, 3, _, inv_of (by decide +kernel), gs_of (by decide +kernel), ?_, by decide, by decide, rfl, by decide +kernel⟩
      unfold State.OpsSettled; decide +kernel
    · refine ⟨wPw id [] 0, wG, 7, 5, _, inv_of (by decide +kernel), gs_of (by decide +kernel), ?_, by decide, by decide, rfl, by decide +kernel⟩
      unfold State.OpsSettled; decide +kernel
    · refine ⟨wPw (fun y => { y with cap := 8 }) [] 0, wG, 3, 5, _, inv_of (by decide +kernel), gs_of (by decide +kernel), ?_, by decide, by decide, rfl, by decide +kernel⟩
      unfold State.OpsSettled; decide +kernel
  · simp only [List.mem_cons, List.not_mem_nil, or_false] at hop
    rcases hop with rfl | rfl <;> exact ⟨wS, wG, _, inv_of (by decide +kernel), gs_of (by decide +kernel), by decide, rfl⟩

theorem test_wit_op_waits : (∀ n ∈ [2000001, 2000000, 1999999], ∀ m ∈ [(31 : Byte), 32], ∃ (s : State) (c : OpChg), s.Inv ∧ s.pw.chg = some c ∧ s.pw.queue = [] ∧ s.pw.st < 2 ∧
      s.now = c.since + n ∧ s.pw.vmode.toNat = m.toNat)
    ∧ (∃ s : State, s.pw.chg = none) ∧ (∃ s : State, 2 ≤ s.pw.st)
    ∧ (∀ n ∈ [4, 5], ∃ (s : State) (k : Fin 8), s.Inv ∧ s.pw.cap.getLsbD k.val = false ∧ s.pw.st < 2 ∧ s.opOf k.val = n ∧ (s.reg 0x4001002C).getLsbD 1 = true)
    ∧ (∃ (s : State) (k : Fin 8), s.now < s.pw.capAt[k] + 1000000)
    ∧ (∃ (s : State) (k : Fin 8), s.Inv ∧ s.pw.cap.getLsbD k.val = true ∧ s.OpsSettled k ∧ s.pw.st < 2 ∧ s.pw.capAt[k] + 1000000 ≤ s.now ∧ s.opReq k.val = s.opOf k.val)
    ∧ (∃ (s : State) (k : Fin 8), s.Inv ∧ s.pw.cap.getLsbD k.val = true ∧ s.OpsSettled k ∧ s.pw.st < 2 ∧ s.pw.capAt[k] + 1000000 ≤ s.now ∧ s.opReq k.val = 5 ∧ s.opOf k.val < 5) := by
  refine ⟨fun n hn m hm => ?_, ⟨wS, by decide +kernel⟩, ⟨wPw (fun y => { y with st := 2 }) [] 0, by decide +kernel⟩, fun n hn => ?_, ⟨wPw (fun y => { y with capAt := y.capAt.set 3 5 }) [] 1000004, 3, by decide +kernel⟩, ?_, ?_⟩
  · have hs : ∀ m ∈ [(31 : Byte), 32], ∀ t ∈ [2000008, 2000007, 2000006],
        invB (wPw (fun y => { y with chg := some ⟨3, 5, 850, 7⟩, vin := 950, vmode := m }) [] t) = true := by decide +kernel
    have hn' : n + 7 ∈ [2000008, 2000007, 2000006] := by
      simp only [List.mem_cons, List.not_mem_nil, or_false] at hn ⊢
      omega
    exact ⟨wPw (fun y => { y with chg := some ⟨3, 5, 850, 7⟩, vin := 950, vmode := m }) [] (n + 7), ⟨3, 5, 850, 7⟩, inv_of (hs m hm _ hn'), rfl, rfl, (by decide : 0 < 2), Nat.add_comm _ _, rfl⟩
  · simp only [List.mem_cons, List.not_mem_nil, or_false] at hn
    rcases hn with rfl | rfl
    · exact ⟨wPw id [(0x40010008, 0x4000), (0x4001002C, 2)] 0, 3, inv_of (by decide +kernel), by decide +kernel⟩
    · exact ⟨wPw id [(0x40010008, 0x5000), (0x4001002C, 2)] 0, 3, inv_of (by decide +kernel), by decide +kernel⟩
  · refine ⟨wPw (fun y => { y with cap := 8 }) [(0x40010004, 0x4000), (0x40010008, 0x4000)] 1000000, 3, inv_of (by decide +kernel), by decide +kernel, ?_, by decide +kernel⟩
    unfold State.OpsSettled; decide +kernel
  · refine ⟨wPw (fun y => { y with cap := 8 }) [(0x40010004, 0x5000), (0x40010008, 0x4000)] 1000000, 3, inv_of (by decide +kernel), by decide +kernel, ?_, by decide +kernel⟩
    unfold State.OpsSettled; decide +kernel

/-- Every hearth waiting in SLEEP. -/
def wZz : State := { wS with hearths := Vector.ofFn fun h : Hid => { Hearth.reset with run := if h.val = 3 then .held else .running, wait := .sleep (h.val = 4) } }
/-- Each hearth but `h` waiting in SLEEP. -/
def wUpH (h : Fin 8) : State := { wS with hearths := Vector.ofFn fun g : Hid => { Hearth.reset with run := .running, wait := if g.val = h.val then .none else .sleep false } }
theorem test_wit_sleep : (∃ (s : State) (w : Who) (x : Word), s.Inv ∧ s.ReachesGs w 0x40010020 ∧ x.getLsbD 31 = true ∧ s.pw.st = 0 ∧ s.pw.sleep = none ∧
      fld x 0 2 = 1 ∧ s.NoWakeLevel ∧ ∀ k < 8, s.StackSleeps k)
    ∧ (∃ (s : State) (w : Who) (x : Word) (i : Nat), s.Inv ∧ s.ReachesGs w 0x40010020 ∧ x.getLsbD 31 = true ∧ s.pw.st = 0 ∧ s.pw.sleep = none ∧ i < 4 ∧
      fld x 0 2 = 1 ∧ (∀ k < 8, s.StackSleeps k) ∧ (s.reg 0x40100014).getLsbD (4 + i) = true ∧ (s.reg 0x40100014).getLsbD (8 + i) = false ∧
      s.host.gpin.getLsbD i = (s.reg 0x40100014).getLsbD (12 + i))
    ∧ (∀ x ∈ [(0x80000002 : Word), 0x80000003], ∃ (s : State) (w : Who), s.Inv ∧ s.ReachesGs w 0x40010020 ∧ x.getLsbD 31 = true ∧ s.pw.st = 0 ∧ s.pw.sleep = none ∧
      (fld x 0 2 = 2 ∨ fld x 0 2 = 3) ∧ s.NoWakeLevel ∧ (∀ k < 8, s.StackSleeps k) ∧ s.DeepRest ∧ ∀ p : Fin 4, s.portState p = 0 ∨ s.portState p = 6)
    ∧ (∀ h ∈ [(0 : Fin 8), 7], ∀ x ∈ [(0x80000103 : Word), 0x80000001], ∃ (s : State) (w : Who) (y : Hid), s.Inv ∧ s.ReachesGs w 0x40010020 ∧ x.getLsbD 31 = true ∧ s.pw.st = 0 ∧
      s.pw.sleep = none ∧ fld x 0 2 ≠ 0 ∧ y.val < 8 ∧ (s.hearth y).run = .running ∧ (∀ d, (s.hearth y).wait ≠ .sleep d) ∧
      (∀ g : Hid, g.val < y.val → (s.hearth g).run ≠ .running ∨ ∃ d, (s.hearth g).wait = .sleep d) ∧ y.val = h.val) := by
  have hz : ∀ k < 8, wZz.StackSleeps k := by
    have : ∀ h : Hid, ((wZz.hearth h).run ≠ .running ∨ ∃ d, (wZz.hearth h).wait = .sleep d) ∧ (wZz.hearth h).sb = [] ∧ (wZz.hearth h).ottUsed = 0 := by decide +kernel
    exact fun k _ h _ => this h
  have hz2 : ∀ k < 8, ({ wZz with regs := [(0x40100014, 0x10)] } : State).StackSleeps k := hz
  have hl : wZz.NoWakeLevel := by unfold State.NoWakeLevel; decide +kernel
  refine ⟨⟨wZz, wG, 0x80000001, inv_of (by decide +kernel), gs_of (by decide +kernel), by decide, by decide +kernel, by decide +kernel, by decide, hl, hz⟩,
    ⟨{ wZz with regs := [(0x40100014, 0x10)] }, wG, 0x80000001, 0, inv_of (by decide +kernel), gs_of (by decide +kernel), by decide, by decide +kernel, by decide +kernel, by decide,
      by decide, hz2, by decide +kernel⟩, fun x hx => ?_, fun h hh x hx => ?_⟩
  · have hd : wZz.DeepRest := by unfold State.DeepRest; decide +kernel
    simp only [List.mem_cons, List.not_mem_nil, or_false] at hx
    rcases hx with rfl | rfl <;>
      exact ⟨wZz, wG, inv_of (by decide +kernel), gs_of (by decide +kernel), by decide, by decide +kernel, by decide +kernel, by decide, hl, hz, hd, by decide +kernel⟩
  · simp only [List.mem_cons, List.not_mem_nil, or_false] at hh hx
    rcases hh with rfl | rfl <;> rcases hx with rfl | rfl
    · exact ⟨wUpH 0, wG, 0, inv_of (by decide +kernel), gs_of (by decide +kernel), by decide +kernel⟩
    · exact ⟨wUpH 0, wG, 0, inv_of (by decide +kernel), gs_of (by decide +kernel), by decide +kernel⟩
    · exact ⟨wUpH 7, wG, 7, inv_of (by decide +kernel), gs_of (by decide +kernel), by decide +kernel⟩
    · exact ⟨wUpH 7, wG, 7, inv_of (by decide +kernel), gs_of (by decide +kernel), by decide +kernel⟩

/-- A source wakes from Banked or Ember as `WakesRestoreTheDevice` lists it. -/
def CanWake (s : State) (n : Nat) : Prop :=
  n = 0 ∨ s.PinWakes n ∨ (n = 16 ∧ s.pw.st = 2 ∧ ∃ p : Fin 4, (s.portCfg p).getLsbD 0 = true) ∨ (n = 17 ∧ ∃ t, (17, t) ∈ s.pw.edges)
    ∨ (n = 18 ∧ s.pw.st = 1) ∨ (n = 19 ∧ s.pw.st = 1 ∧ ∃ h, (s.hearth h).icpend &&& s.reg 0x40010040 ≠ 0)
/-- Asleep in state `st`, with GPIO0 an edge source and GPIO3 a level source, and every source enabled. -/
def wSlp (st : Nat) : State :=
  { wPw (fun y => { y with st := st, edges := [(17, 3)] }) [(0x40010040, 2), (0x40080060, 1), (0x40100014, 0x000F01F3)] 9 with
    hearths := Vector.replicate 64 { Hearth.reset with run := .running, icpend := 2 } }
theorem test_wit_wakes : (∀ c ∈ [(1, 0), (2, 4), (2, 7), (2, 16), (1, 17), (1, 18), (1, 19)], ∃ (s : State) (n : Nat), s.Inv ∧ (s.pw.st = 1 ∨ s.pw.st = 2) ∧
      (s.reg 0x40100014).getLsbD n = true ∧ n < 32 ∧ CanWake s n ∧ s.pw.st = c.1 ∧ n = c.2)
    ∧ (∀ n ∈ [0, 4, 7], ∃ s : State, s.Inv ∧ s.pw.st = 3 ∧ (s.reg 0x40100014).getLsbD n = true ∧ (n = 0 ∨ s.PinWakes n))
    ∧ (∃ (s : State) (n : Nat), (s.reg 0x40100014).getLsbD n = false ∧ s.pw.st ≠ 0) ∧ (∃ s : State, s.pw.st = 0 ∧ s.pw.sleep = none)
    ∧ (∀ n ∈ [0, 4, 7], ∃ s : State, s.pw.st = 0 ∧ s.pw.sleep ≠ none ∧ (n = 0 ∨ s.PinWakes n))
    ∧ (∃ s : State, (s.reg 0x40100028).getLsbD 31 = false)
    ∧ (∃ s : State, s.Inv ∧ s.pw.st = 1 ∧ (s.reg 0x40100014).getLsbD 1 = true ∧ (s.reg 0x40100028).getLsbD 31 = true ∧ s.reg 0x40100024 = 0 ∧ fld (s.reg 0x40100028) 0 16 = 0)
    ∧ ∀ n ∈ [1, 2, 3], ∃ s : State, s.Inv ∧ s.pw.st = n := by
  have hpin : ∀ st, (wSlp st).PinWakes 4 ∧ (wSlp st).PinWakes 7 := fun st => ⟨⟨by decide, by decide, .inl (show ((wSlp 0).reg 0x40100014).getLsbD 8 = true by decide +kernel)⟩,
    ⟨by decide, by decide, .inr (show (wSlp 0).host.gpin.getLsbD 3 = ((wSlp 0).reg 0x40100014).getLsbD 15 by decide +kernel)⟩⟩
  refine ⟨fun c hc => ?_, fun n hn => ?_, ⟨wPw (fun y => { y with st := 2 }) [] 0, 4, by decide +kernel⟩, ⟨wS, by decide +kernel⟩, fun n hn => ?_, ⟨wS, by decide +kernel⟩,
    ⟨wPw (fun y => { y with st := 1 }) [(0x40100014, 2), (0x40100028, 0x80000000)] 0, inv_of (by decide +kernel), by decide +kernel⟩, fun n hn => ?_⟩
  · simp only [List.mem_cons, List.not_mem_nil, or_false] at hc
    rcases hc with rfl | rfl | rfl | rfl | rfl | rfl | rfl
    · exact ⟨wSlp 1, 0, inv_of (by decide +kernel), .inl rfl, by decide +kernel, by decide, .inl rfl, rfl, rfl⟩
    · exact ⟨wSlp 2, 4, inv_of (by decide +kernel), .inr rfl, by decide +kernel, by decide, .inr (.inl (hpin 2).1), rfl, rfl⟩
    · exact ⟨wSlp 2, 7, inv_of (by decide +kernel), .inr rfl, by decide +kernel, by decide, .inr (.inl (hpin 2).2), rfl, rfl⟩
    · exact ⟨wSlp 2, 16, inv_of (by decide +kernel), .inr rfl, by decide +kernel, by decide, .inr (.inr (.inl ⟨rfl, rfl, 1, by decide +kernel⟩)), rfl, rfl⟩
    · exact ⟨wSlp 1, 17, inv_of (by decide +kernel), .inl rfl, by decide +kernel, by decide, .inr (.inr (.inr (.inl ⟨rfl, 3, List.mem_cons_self⟩))), rfl, rfl⟩
    · exact ⟨wSlp 1, 18, inv_of (by decide +kernel), .inl rfl, by decide +kernel, by decide, .inr (.inr (.inr (.inr (.inl ⟨rfl, rfl⟩)))), rfl, rfl⟩
    · exact ⟨wSlp 1, 19, inv_of (by decide +kernel), .inl rfl, by decide +kernel, by decide, .inr (.inr (.inr (.inr (.inr ⟨rfl, rfl, 0, by decide +kernel⟩)))), rfl, rfl⟩
  · simp only [List.mem_cons, List.not_mem_nil, or_false] at hn
    rcases hn with rfl | rfl | rfl
    · exact ⟨wSlp 3, inv_of (by decide +kernel), rfl, by decide +kernel, .inl rfl⟩
    · exact ⟨wSlp 3, inv_of (by decide +kernel), rfl, by decide +kernel, .inr (hpin 3).1⟩
    · exact ⟨wSlp 3, inv_of (by decide +kernel), rfl, by decide +kernel, .inr (hpin 3).2⟩
  · have hs : (wSlp 0).setPw { (wSlp 0).pw with sleep := some (1, 0, 0) } |>.PinWakes 4 := (hpin 0).1
    have hs7 : (wSlp 0).setPw { (wSlp 0).pw with sleep := some (1, 0, 0) } |>.PinWakes 7 := (hpin 0).2
    simp only [List.mem_cons, List.not_mem_nil, or_false] at hn
    rcases hn with rfl | rfl | rfl
    · exact ⟨(wSlp 0).setPw { (wSlp 0).pw with sleep := some (1, 0, 0) }, rfl, by decide +kernel, .inl rfl⟩
    · exact ⟨(wSlp 0).setPw { (wSlp 0).pw with sleep := some (1, 0, 0) }, rfl, by decide +kernel, .inr hs⟩
    · exact ⟨(wSlp 0).setPw { (wSlp 0).pw with sleep := some (1, 0, 0) }, rfl, by decide +kernel, .inr hs7⟩
  · simp only [List.mem_cons, List.not_mem_nil, or_false] at hn
    rcases hn with rfl | rfl | rfl
    · exact ⟨wSlp 1, inv_of (by decide +kernel), rfl⟩
    · exact ⟨wSlp 2, inv_of (by decide +kernel), rfl⟩
    · exact ⟨wSlp 3, inv_of (by decide +kernel), rfl⟩

/-! ## Witnesses: resets, monitors and start-up (16, 17) -/

theorem test_wit_device_resets : (∀ n ∈ [0, 1, 2, 3], ∃ s : State, s.Inv ∧ s.pw.st = n)
    ∧ (∃ s : State, s.Inv ∧ (s.reg 0x40100014).getLsbD 0 = true ∧ s.pw.st = 3)
    ∧ (∀ x ∈ [(0x5352 : Word), 0x15352], ∃ (s : State) (w : Who), s.Inv ∧ s.ReachesGs w 0x40010030 ∧ (x = 0x5352 ∨ x ≠ 0x5352))
    ∧ (∀ d ∈ [Draught.g, .p], ∀ n ∈ [100000, 99999], ∃ (s : State) (t : Nat), s.Inv ∧ (s.dg[dgIx d]).exp = some t ∧ (d = .g ∨ (s.reg (dgBase d)).getLsbD 2 = true) ∧ s.now = t + n)
    ∧ (∃ (s : State) (t : Nat), s.pw.rst = some t)
    ∧ (∃ (f : Fin 3) (h : Hid), Survives false (frameKey f h 6)) ∧ (∃ a, Survives true a) ∧ ∃ s : State, (∀ k : Fin 8, (s.stks[k]).patch = []) ∧ ∀ t : Fin 19, s.xb.busy[t] = none := by
  refine ⟨fun n hn => ?_, ⟨wPw (fun y => { y with st := 3 }) [] 0, inv_of (by decide +kernel), by decide +kernel⟩, fun x _ => ?_, fun d hd n hn => ?_,
    ⟨wPw (fun y => { y with rst := some 4 }) [] 0, 4, by decide +kernel⟩, ⟨0, 0, by unfold Survives; decide +kernel⟩, ⟨0x200000000, by unfold Survives; decide +kernel⟩,
    ⟨wS, by decide +kernel⟩⟩
  · simp only [List.mem_cons, List.not_mem_nil, or_false] at hn
    rcases hn with rfl | rfl | rfl | rfl
    · exact ⟨wS, inv_of (by decide +kernel), by decide +kernel⟩
    · exact ⟨wPw (fun y => { y with st := 1 }) [] 0, inv_of (by decide +kernel), by decide +kernel⟩
    · exact ⟨wPw (fun y => { y with st := 2 }) [] 0, inv_of (by decide +kernel), by decide +kernel⟩
    · exact ⟨wPw (fun y => { y with st := 3 }) [] 0, inv_of (by decide +kernel), by decide +kernel⟩
  · exact ⟨wS, wG, inv_of (by decide +kernel), gs_of (by decide +kernel), em _⟩
  · simp only [List.mem_cons, List.not_mem_nil, or_false] at hd hn
    rcases hd with rfl | rfl <;> rcases hn with rfl | rfl
    · exact ⟨wDg .g [(4, 9)] 100009 ⟨0, 9, false, none, some 9, true, none⟩, 9, inv_of (by decide +kernel), by decide +kernel⟩
    · exact ⟨wDg .g [(4, 9)] 100008 ⟨0, 9, false, none, some 9, true, none⟩, 9, inv_of (by decide +kernel), by decide +kernel⟩
    · exact ⟨{ wDg .p [(4, 9)] 100009 ⟨0, 9, false, none, some 9, true, none⟩ with regs := [(dgBase .p, 5)] }, 9, inv_of (by decide +kernel), by decide +kernel⟩
    · exact ⟨{ wDg .p [(4, 9)] 100008 ⟨0, 9, false, none, some 9, true, none⟩ with regs := [(dgBase .p, 5)] }, 9, inv_of (by decide +kernel), by decide +kernel⟩

theorem test_wit_hearth_reset : ∀ b, ∃ (s : State) (w : Who) (x : Word) (h : Hid) (n : Fin 64), s.Inv ∧ s.ReachesGs w 0x40010034 ∧ h.val = fld x 0 6 ∧ x.getLsbD 8 = true ∧
    s.pw.booted = b ∧ (s.stks[h.val / 8]'(by omega)).patch = [] ∧ s.hub.locks[n] = some h.val := by
  intro b
  cases b
  · exact ⟨{ wLock 3 63 with pw := Pw.reset }, wG, 0x13F, 63, 3, inv_of (by decide +kernel), gs_of (by decide +kernel), by decide +kernel⟩
  · exact ⟨wLock 3 63, wG, 0x13F, 63, 3, inv_of (by decide +kernel), gs_of (by decide +kernel), by decide +kernel⟩

theorem test_wit_monitors : (∀ r, ∃ s : State, s.Inv ∧ s.pw.ref = r ∧ s.pw.lf = r ∧ s.dm.bow = r) ∧ (∃ s : State, s.pw.st ≠ 2) ∧ (∃ s : State, s.pw.st = 2)
    ∧ (∃ s : State, ∀ p : Fin 4, s.portState p = 0 ∨ s.portState p = 6) ∧ ∃ (s : State) (h : Hid), s.Inv ∧ (s.hearth h).gsh = true := by
  refine ⟨fun r => ?_, ⟨wS, by decide +kernel⟩, ⟨wPw (fun y => { y with st := 2 }) [] 0, by decide +kernel⟩, ⟨wS, by decide +kernel⟩,
    ⟨wSec id 0, 0, inv_of (by decide +kernel), by decide +kernel⟩⟩
  cases r
  · exact ⟨wPw (fun y => { y with ref := false, lf := false }) [] 0, inv_of (by decide +kernel), by decide +kernel⟩
  · exact ⟨wDm (fun d => { d with bow := true }) 0 wS, inv_of (by decide +kernel), by decide +kernel⟩

theorem erased_headErr (s : State) {b : Bool} (h : s.patW b 0 ≠ 0x54505842) : ∃ c o, s.headErr b = some (c, o) := by
  unfold State.headErr
  dsimp only
  by_cases hs : (!slotThere b) = true
  · rw [if_pos hs]
    exact ⟨1, 0, rfl⟩
  · rw [if_neg hs, if_pos h]
    exact ⟨2, 0, rfl⟩

/-- Slots on an erased flash, or not on it, do not start, whatever the reading meets. -/
theorem erased_slotBad (s : State) (b : Bool) (n : Nat) (h : s.patW b 0 ≠ 0x54505842) : ∃ c o, s.SlotBad b n c o := by
  have hd : (slotThere b = false → s.headErr b = some (1, 0)) ∧ (slotThere b = true → s.headErr b = some (2, 0)) := by
    unfold State.headErr
    dsimp only
    exact ⟨fun hs => by rw [if_pos (by simp [hs])], fun hs => by rw [if_neg (by simp [hs]), if_pos h]⟩
  cases hs : slotThere b with
  | false => exact ⟨1, 0, .inl ⟨hd.1 hs, .inl hs⟩⟩
  | true =>
    by_cases hr : ReadTo n 256
    · exact ⟨2, 0, .inl ⟨hd.2 hs, .inr hr⟩⟩
    · obtain ⟨f, hf⟩ := Classical.not_forall.mp hr
      obtain ⟨hf, hl⟩ := Classical.not_imp.mp hf
      exact ⟨0x0D, f, .inr (.inr ⟨hs, hf, rfl, .inl (by omega)⟩)⟩

theorem wPatN_eq (n : Nat) (s : State) : wPatN n s = { s with mem := (wPatN n s).mem } := State.setBytes_eq _ _ _
theorem wPatN_wf (n : Nat) (s : State) (h : Memory.wf s.mem = true) : Memory.wf (wPatN n s).mem = true := State.setBytes_wf _ _ _ h

/-- The pattern leaves slot 1 erased. -/
theorem wPat_slot1 (s : State) (h : s.mem = []) : (wPatN 0x1340 s).patW true 0 ≠ 0x54505842 := by
  have e : ∀ i, 0x1000000 ≤ i → i < 0x4000000 → (wPatN 0x1340 s).byte (flashKey i) = 0xFF := by
    intro i h1 h2
    have hl : ((List.range 0x1340).map patByte).length = 0x1340 := by simp
    have h1 : ¬ (flashKey 0 ≤ flashKey i ∧ flashKey i < flashKey 0 + ((List.range 0x1340).map patByte).length) := by
      rw [hl]; unfold flashKey; omega
    rw [wPatN, State.byte_setBytes _ _ _ _ (by rw [h]; rfl), if_neg h1]
    have : memDefault (flashKey i) = 0xFF := by
      unfold memDefault flashKey within
      rw [if_neg (by simp only [Bool.and_eq_true, decide_eq_true_eq]; omega), if_pos (by omega)]
    rw [State.byte, h]
    exact this
  have hk : (wPatN 0x1340 s).patW true 0 = 0xFFFFFFFF := by
    show (wPatN 0x1340 s).rd32 (flashKey 0x1000000) = _
    have e0 := e 0x1000000 (by decide) (by decide)
    have e1 := e 0x1000001 (by decide) (by decide)
    have e2 := e 0x1000002 (by decide) (by decide)
    have e3 := e 0x1000003 (by decide) (by decide)
    simp only [State.rd32, State.bytes, show flashKey 0x1000000 + 1 = flashKey 0x1000001 from rfl, show flashKey 0x1000001 + 1 = flashKey 0x1000002 from rfl,
      show flashKey 0x1000002 + 1 = flashKey 0x1000003 from rfl, e0, e1, e2, e3]
    rfl
  rw [hk]
  decide

theorem wPatN_start (n : Nat) (s : State) (hi : s.Inv) (h : s.pw.booted = false ∧ s.pw.rst = none ∧ s.pw.st = 0 ∧ s.sec.cycle = 1) :
    (wPatN n s).Inv ∧ (wPatN n s).pw.booted = false ∧ (wPatN n s).pw.rst = none ∧ (wPatN n s).pw.st = 0 ∧ (wPatN n s).sec.cycle = 1 := by
  have e : wPatN n s = { s with mem := (wPatN n s).mem } := wPatN_eq n s
  have w : Memory.wf (wPatN n s).mem = true := wPatN_wf n s hi.mem
  generalize (wPatN n s).mem = m at e w
  rw [e]
  exact ⟨⟨w, hi.regs, hi.cr, hi.gens⟩, h⟩

/-- The pattern starts, whichever slot PREF names. -/
theorem wPat_boots (s : State) (hi : s.Inv) (hm : s.mem = []) (h : s.pw.booted = false ∧ s.pw.rst = none ∧ s.pw.st = 0 ∧ s.sec.cycle = 1) (hr : s.sec.rev = 0)
    (hs : slotThere false = true) (hk : sha256 ((wPatN 0x1340 s).keyBytes false) = Config.otpKey 0)
    (he : P256.verify (sha256 ((wPatN 0x1340 s).signed false)) ((wPatN 0x1340 s).patSig false) ((wPatN 0x1340 s).keyBytes false) = true)
    (hf : ReadTo ((wPatN 0x1340 s).readingOf false) 0x1340) :
    (wPatN 0x1340 s).Inv ∧ (wPatN 0x1340 s).pw.booted = false ∧ (wPatN 0x1340 s).pw.rst = none ∧ (wPatN 0x1340 s).pw.st = 0 ∧ (wPatN 0x1340 s).sec.cycle = 1 ∧ (wPatN 0x1340 s).headErr false = none ∧
      (wPatN 0x1340 s).bodyErr false = none ∧ ReadTo ((wPatN 0x1340 s).readingOf false) ((wPatN 0x1340 s).patLen false) ∧ ∃ c o, (wPatN 0x1340 s).SlotBad true ((wPatN 0x1340 s).readingOf true) c o := by
  obtain ⟨a, b, c, d, e⟩ := wPatN_start 0x1340 s hi h
  have hlen : (wPatN 0x1340 s).patLen false = 0x1340 := by
    rw [State.patLen, wPat_patW 0x1340 s hi.mem 8 (by decide) (by decide)]; decide
  exact ⟨a, b, c, d, e, wPat_headErr 0x1340 (by decide) _ hi.mem hs hr, wPat_bodyErr _ hi.mem hk he, by rw [hlen]; exact hf, erased_slotBad _ _ _ (wPat_slot1 s hm)⟩

/-- At reset, with the slot that PREF names. -/
def wPref (b : Bool) : State := { State.reset with regs := if b then [(0x400B0010, 1)] else [] }
theorem test_wit_start_up : (∃ s : State, s.pw.booted = true) ∧ (∃ s : State, s.pw.rst ≠ none) ∧ (∃ s : State, s.pw.st ≠ 0)
    ∧ (∃ s : State, s.Inv ∧ s.pw.booted = false ∧ s.pw.rst = none ∧ s.pw.st = 0 ∧ s.sec.cycle ≠ 1 ∧ s.sec.cycle ≠ 2)
    ∧ (∃ (s : State) (a oa b ob : Nat), s.Inv ∧ s.pw.booted = false ∧ s.pw.rst = none ∧ s.pw.st = 0 ∧ s.sec.cycle = 1 ∧
      s.SlotBad false (s.readingOf false) a oa ∧ s.SlotBad true (s.readingOf true) b ob)
    ∧ (∀ p, slotThere false = true → sha256 ((wPat (wPref p)).keyBytes false) = Config.otpKey 0 →
      P256.verify (sha256 ((wPat (wPref p)).signed false)) ((wPat (wPref p)).patSig false) ((wPat (wPref p)).keyBytes false) = true →
      ReadTo ((wPat (wPref p)).readingOf false) 0x1340 →
      ∃ (s : State) (b : Bool), s.Inv ∧ s.pw.booted = false ∧ s.pw.rst = none ∧ s.pw.st = 0 ∧ s.sec.cycle = 1 ∧ s.headErr b = none ∧ s.bodyErr b = none ∧
      ReadTo (s.readingOf b) (s.patLen b) ∧ (s.reg 0x400B0010).getLsbD 0 = p ∧ b = false ∧ ∃ c o, s.SlotBad (!b) (s.readingOf (!b)) c o) := by
  refine ⟨⟨wS, by decide +kernel⟩, ⟨wPw (fun y => { y with rst := some 4 }) [] 0, by decide +kernel⟩, ⟨wPw (fun y => { y with st := 1 }) [] 0, by decide +kernel⟩,
    ⟨{ State.reset with sec := { Sec.reset with cycle := 3 } }, inv_of (by decide +kernel), by decide +kernel⟩, ?_, fun p hs hk he hf => ?_⟩
  · have hn : ∀ b, State.reset.patW b 0 ≠ 0x54505842 := by
      intro b
      cases b <;> decide +kernel
    obtain ⟨a, oa, h1⟩ := erased_slotBad State.reset false (State.reset.readingOf false) (hn _)
    obtain ⟨b, ob, h2⟩ := erased_slotBad State.reset true (State.reset.readingOf true) (hn _)
    exact ⟨State.reset, a, oa, b, ob, inv_of (by decide +kernel), by decide +kernel, by decide +kernel, by decide +kernel, by decide +kernel, h1, h2⟩
  · have hi : (wPref p).Inv := by cases p <;> exact inv_of (by decide +kernel)
    obtain ⟨a, b, c, d, e, f, g, i, j⟩ := wPat_boots (wPref p) hi rfl ⟨rfl, rfl, rfl, rfl⟩ rfl hs hk he hf
    refine ⟨_, false, a, b, c, d, e, f, g, i, ?_, rfl, j⟩
    have hr : (wPatN 0x1340 (wPref p)).regs = (wPref p).regs := by rw [wPatN_eq]
    unfold State.reg
    rw [hr]
    cases p <;> decide +kernel

/-! ## Witnesses: Ethernet and USB (18) -/

/-- ETHCTL given; the rings' descriptors with the buffer and the second word given stand at the start of system SRAM and at its end. -/
def wEth (c buf w1 : Word) (go : Bool) : State :=
  ((((({ wS with regs := [(0x400D0000, c), (0x400D0010, 0x10000000), (0x400D0014, 0x101FFFF0)], host := { wS.host with txGo := go } } : State).wr32
    0x10000000 buf).wr32 0x10000004 w1).wr32 0x101FFFF0 buf).wr32 0x101FFFF4 w1)
/-- Whether system SRAM is open. -/
def sramB (s : State) : Bool := !s.targetOff 0 && openB s 0 && s.pw.ask.isNone
theorem sram_of {s : State} (h : sramB s = true) : s.SramOpen := by
  simp only [sramB, Bool.and_eq_true, Bool.not_eq_true', Option.isNone_iff_eq_none] at h
  exact ⟨h.1.1, open_of h.1.2, h.2⟩
theorem ring_of {s : State} {r b z : Nat} (h : (decide (b = (s.reg r).toNat / 64 * 64 ∧ z = 2 ^ fld (s.reg r) 0 5 ∧ 6 ≤ fld (s.reg r) 0 5 ∧ fld (s.reg r) 0 5 ≤ 16 ∧
    0x10000000 ≤ b ∧ b + z ≤ 0x10200000) && sramB s) = true) : s.Ring r b z := by
  simp only [Bool.and_eq_true, decide_eq_true_eq] at h
  exact ⟨h.1.1, h.1.2.1, h.1.2.2.1, h.1.2.2.2.1, h.1.2.2.2.2, sram_of h.2⟩
def wBody : List Byte := [1, 2, 3, 4, 5, 6, 7, 8, 9, 10, 11, 12, 0x88, 0xF7, 0]
def wFrame : List Byte := wBody ++ leBytes 4 (crc32 wBody).toNat
theorem test_wit_eth_receive : (∀ w1 ∈ [(0x10000 : Word), 0x90000, 0], ∃ (s : State) (f : List Byte) (n a b : Nat) (d : Word), s.Inv ∧ s.SramOpen ∧ (s.reg 0x400D0000).getLsbD 0 = true ∧ s.pw.st < 2 ∧
      f.length = n + 4 ∧ n + 4 ≤ 1522 ∧ s.host.stop = false ∧ leNat (f.drop n) = (crc32 (f.take n)).toNat ∧
      a = s.descOf 0x400D0010 s.host.rxAt ∧ InSram a 16 ∧ d = s.rd32 (a + 4) ∧ b = (s.rd32 a).toNat ∧ InSram b n ∧ (b + n ≤ a ∨ a + 16 ≤ b) ∧ d = w1)
    ∧ ∀ f ∈ [wBody, [1, 2, 3], []], ∃ s : State, s.Inv ∧ (s.reg 0x400D0000).getLsbD 0 = true ∧ s.pw.st < 2 ∧ f.length ≤ 1522 ∧
      (f.length < 4 ∨ leNat (f.drop (f.length - 4)) ≠ (crc32 (f.take (f.length - 4))).toNat) := by
  refine ⟨fun w1 h1 => ?_, fun f hf => ?_⟩
  · simp only [List.mem_cons, List.not_mem_nil, or_false] at h1
    rcases h1 with rfl | rfl | rfl
    · refine ⟨wEth 1 0x10000010 0x10000 false, wFrame, 15, 0x10000000, 0x10000010, 0x10000, inv_of (by decide +kernel), sram_of (by decide +kernel), ?_⟩; unfold InSram; decide +kernel
    · refine ⟨wEth 0x21 0x10001000 0x90000 false, wFrame, 15, 0x10000000, 0x10001000, 0x90000, inv_of (by decide +kernel), sram_of (by decide +kernel), ?_⟩; unfold InSram; decide +kernel
    · refine ⟨wEth 1 0x10001000 0 false, wFrame, 15, 0x10000000, 0x10001000, 0, inv_of (by decide +kernel), sram_of (by decide +kernel), ?_⟩; unfold InSram; decide +kernel
  · simp only [List.mem_cons, List.not_mem_nil, or_false] at hf
    rcases hf with rfl | rfl | rfl <;> exact ⟨wEth 1 0x10001000 0 false, inv_of (by decide +kernel), by decide +kernel⟩

theorem test_wit_eth_transmit : (∃ (s : State) (w : Who), s.ReachesGs w 0x400D0018) ∧ (∃ s : State, s.host.txGo = false)
    ∧ ∀ w1 ∈ [(0x1000E : Word), 0x9000E, 0xE], ∃ (s : State) (n a b : Nat) (d : Word), s.Inv ∧ s.SramOpen ∧ (s.reg 0x400D0000).getLsbD 1 = true ∧ s.pw.st < 2 ∧ s.host.txGo = true ∧
      s.host.stop = false ∧ a = s.descOf 0x400D0014 s.host.txAt ∧ InSram a 16 ∧ d = s.rd32 (a + 4) ∧
      b = (s.rd32 a).toNat ∧ n = fld d 0 11 ∧ d.getLsbD 17 = false ∧ InSram b n ∧ d = w1 := by
  refine ⟨⟨wS, wG, gs_of (by decide +kernel)⟩, ⟨wS, by decide +kernel⟩, fun w1 h1 => ?_⟩
  simp only [List.mem_cons, List.not_mem_nil, or_false] at h1
  rcases h1 with rfl | rfl | rfl
  · refine ⟨wEth 2 0x10000010 0x1000E true, 14, 0x101FFFF0, 0x10000010, 0x1000E, inv_of (by decide +kernel), sram_of (by decide +kernel), ?_⟩; unfold InSram; decide +kernel
  · refine ⟨wEth 2 0x10000010 0x9000E true, 14, 0x101FFFF0, 0x10000010, 0x9000E, inv_of (by decide +kernel), sram_of (by decide +kernel), ?_⟩; unfold InSram; decide +kernel
  · refine ⟨wEth 2 0x10000010 0xE true, 14, 0x101FFFF0, 0x10000010, 0xE, inv_of (by decide +kernel), sram_of (by decide +kernel), ?_⟩; unfold InSram; decide +kernel

theorem test_wit_mac_time : (∃ (s : State) (w : Who), s.Inv ∧ s.ReachesGs w 0x400D0028) ∧ (∀ b, ∃ s : State, s.Inv ∧ s.host.mdio = b)
    ∧ (∀ b : Bool, ∃ (s : State) (w : Who), s.ReachesGs w (if b then 0x400D0054 else 0x400D0050) ∧ s.now < s.host.ptpAt + 40)
    ∧ ∃ (s : State) (w : Who) (n : Nat) (r : Int) (t : Nat), s.Inv ∧ s.Reaches w 0x400D0040 false ∧ s.pw.ref = true ∧ s.pw.st < 2 ∧
    s.now = s.host.ptpAt + 40 * n ∧ 0 < n ∧ r = max (-34359738) (min 34359738 (s.reg 0x400D004C).toInt) ∧
    (t : Int) = (s.host.ptp + n * (40 * 2 ^ 32 + r) + s.host.ptpUp) / 2 ^ 32 % (2 ^ 48 * 1000000000) := by
  refine ⟨⟨wS, wG, inv_of (by decide +kernel), gs_of (by decide +kernel)⟩, fun b => ?_, fun b => ?_,
    ⟨wPw id [] 400, wP, 10, 0, 400, inv_of (by decide +kernel), reaches_of (by decide +kernel), by decide +kernel⟩⟩
  · cases b
    · exact ⟨wS, inv_of (by decide +kernel), by decide +kernel⟩
    · exact ⟨{ wS with host := { wS.host with mdio := true } }, inv_of (by decide +kernel), by decide +kernel⟩
  · cases b <;> exact ⟨wS, wG, gs_of (by decide +kernel), by decide +kernel⟩

/-- USB on and configured, with host state and registers given. -/
def wUsb (f : HostSt → HostSt) (r : List (Nat × Word)) (now : Nat) : State :=
  { wS with host := f { wS.host with conf := true, vbus := true }, regs := (0x400E0000, 3) :: r, now := now }
theorem test_wit_usb_events : (∃ (s : State) (t : Nat), s.Inv ∧ s.host.ksp = some (false, t)) ∧ (∃ s : State, s.Inv ∧ ∀ t, s.host.ksp ≠ some (false, t)) ∧ (∃ s : State, s.usbOn = true)
    ∧ (∃ r : Byte, r ≠ 9) ∧ (∃ s : State, s.usbOn = false) ∧ (∃ s : State, s.Inv ∧ s.pw.st = 0 ∧ s.pw.sleep = none)
    ∧ (∃ s : State, s.pw.st = 0 ∧ s.pw.sleep ≠ none ∧ s.host.vbus = false)
    ∧ (∃ s : State, s.Inv ∧ s.pw.st = 1 ∧ (s.reg 0x40100014).getLsbD 18 = false)
    ∧ ∃ s : State, s.Inv ∧ s.pw.st = 1 ∧ s.host.vbus = false ∧ (s.reg 0x40100014).getLsbD 18 = true := by
  refine ⟨⟨wUsb (fun x => { x with ksp := some (false, 8) }) [] 9, 8, inv_of (by decide +kernel), rfl⟩, ⟨wS, inv_of (by decide +kernel), fun t => ?_⟩,
    ⟨wUsb id [] 9, by decide +kernel⟩, ⟨0, by decide⟩, ⟨wS, by decide +kernel⟩, ⟨wS, inv_of (by decide +kernel), by decide +kernel⟩, ⟨wPw (fun y => { y with sleep := some (2, 0, 0) }) [] 0, by decide +kernel⟩,
    ⟨wPw (fun y => { y with st := 1 }) [] 0, inv_of (by decide +kernel), by decide +kernel⟩,
    ⟨wPw (fun y => { y with st := 1 }) [(0x40100014, 0x40000)] 0, inv_of (by decide +kernel), by decide +kernel⟩⟩
  have : wS.host.ksp = none := by decide +kernel
  rw [this]
  simp

theorem test_wit_cdc : (∀ n ∈ [0, 63, 64], ∃ (s : State) (d : List Byte) (b z wp rp : Nat), s.Inv ∧ s.Ring 0x400E0020 b z ∧ s.host.conf = true ∧ s.usbOn = true ∧ d.length ≤ 64 ∧
      wp = (s.reg 0x400E0024).toNat % z ∧ rp = (s.reg 0x400E0028).toNat % z ∧ d.length = n)
    ∧ (∃ (s : State) (d : List Byte) (b z wp rp : Nat), s.Inv ∧ s.Ring 0x400E0020 b z ∧ s.host.conf = true ∧ s.usbOn = true ∧ d.length ≤ 64 ∧
      wp = (s.reg 0x400E0024).toNat % z ∧ rp = (s.reg 0x400E0028).toNat % z ∧ (rp + z - 1 - wp) % z < d.length)
    ∧ (∃ (s : State) (d : List Byte) (b z wp rp : Nat), s.Inv ∧ s.Ring 0x400E0020 b z ∧ s.host.conf = true ∧ s.usbOn = true ∧ d.length ≤ 64 ∧
      wp = (s.reg 0x400E0024).toNat % z ∧ rp = (s.reg 0x400E0028).toNat % z ∧ d.length ≤ (rp + z - 1 - wp) % z ∧ z < wp + d.length)
    ∧ ∀ w ∈ [(0 : Word), 1, 63], ∃ (s : State) (n b z wp rp k : Nat), s.Inv ∧ s.Ring 0x400E0030 b z ∧ s.host.conf = true ∧ s.usbOn = true ∧
    wp = (s.reg 0x400E0034).toNat % z ∧ rp = (s.reg 0x400E0038).toNat % z ∧ k = min (min n 64) ((wp + z - rp) % z) ∧ k = w.toNat := by
  refine ⟨fun n hn => ?_, ⟨wUsb id [(0x400E0020, 0x10000006), (0x400E0024, 5), (0x400E0028, 7)] 0, [1, 2], 0x10000000, 64, 5, 7, inv_of (by decide +kernel), ring_of (by decide +kernel), by decide +kernel⟩,
    ⟨wUsb id [(0x400E0020, 0x101F0010), (0x400E0024, 0xFFFF), (0x400E0028, 7)] 0, [1, 2, 3], 0x101F0000, 65536, 0xFFFF, 7, inv_of (by decide +kernel), ring_of (by decide +kernel), by decide +kernel⟩, fun w hw => ?_⟩
  · simp only [List.mem_cons, List.not_mem_nil, or_false] at hn
    rcases hn with rfl | rfl | rfl
    · refine ⟨wUsb id [(0x400E0020, 0x10000006)] 0, [], 0x10000000, 64, 0, 0, inv_of (by decide +kernel), ring_of (by decide +kernel), by decide +kernel⟩
    · refine ⟨wUsb id [(0x400E0020, 0x10000006)] 0, List.replicate 63 7, 0x10000000, 64, 0, 0, inv_of (by decide +kernel), ring_of (by decide +kernel), by decide +kernel⟩
    · refine ⟨wUsb id [(0x400E0020, 0x10000006)] 0, List.replicate 64 7, 0x10000000, 64, 0, 0, inv_of (by decide +kernel), ring_of (by decide +kernel), by decide +kernel⟩
  · simp only [List.mem_cons, List.not_mem_nil, or_false] at hw
    rcases hw with rfl | rfl | rfl
    · refine ⟨wUsb id [(0x400E0030, 0x10000006)] 0, 64, 0x10000000, 64, 0, 0, 0, inv_of (by decide +kernel), ring_of (by decide +kernel), by decide +kernel⟩
    · refine ⟨wUsb id [(0x400E0030, 0x10000006), (0x400E0038, 63)] 0, 64, 0x10000000, 64, 0, 63, 1, inv_of (by decide +kernel), ring_of (by decide +kernel), by decide +kernel⟩
    · refine ⟨wUsb id [(0x400E0030, 0x10000006), (0x400E0034, 63)] 0, 64, 0x10000000, 64, 63, 0, 63, inv_of (by decide +kernel), ring_of (by decide +kernel), by decide +kernel⟩

theorem test_wit_dfu : (∃ (s : State) (alt : Bool) (n : Half) (d : List Byte) (a : Nat), s.Inv ∧ s.host.conf = true ∧ s.usbOn = true ∧ s.sec.cycle ≠ 4 ∧ d ≠ [] ∧ d.length ≤ 0x1000 ∧
      (s.host.dfu = 2 ∨ s.host.dfu = 5) ∧ a = slotBase alt + n.toNat * 0x1000 ∧
      ¬ (((s.reg 0x400E0000).getLsbD 1 = true ∨ s.pw.hold = true) ∧ ¬ (s.sec.cycle = 2 ∧ (s.reg 0x400E0000).getLsbD 2 = false)))
    ∧ (∃ (s : State) (alt : Bool) (n : Half) (d : List Byte) (a : Nat), s.Inv ∧ s.host.conf = true ∧ s.usbOn = true ∧ s.sec.cycle ≠ 4 ∧ d ≠ [] ∧ d.length ≤ 0x1000 ∧
      (s.host.dfu = 2 ∨ s.host.dfu = 5) ∧ a = slotBase alt + n.toNat * 0x1000 ∧
      (((s.reg 0x400E0000).getLsbD 1 = true ∨ s.pw.hold = true) ∧ ¬ (s.sec.cycle = 2 ∧ (s.reg 0x400E0000).getLsbD 2 = false)) ∧
      ((s.pw.hold = false ∧ slotBase s.pat.aslot ≤ a ∧ a < slotBase s.pat.aslot + s.patLen s.pat.aslot) ∨ s.pat.stage = some alt))
    ∧ (∃ (s : State) (alt : Bool) (n : Half) (d : List Byte) (a : Nat), s.Inv ∧ s.host.conf = true ∧ s.usbOn = true ∧ s.sec.cycle ≠ 4 ∧ d ≠ [] ∧ d.length ≤ 0x1000 ∧
      (s.host.dfu = 2 ∨ s.host.dfu = 5) ∧ a = slotBase alt + n.toNat * 0x1000 ∧
      (((s.reg 0x400E0000).getLsbD 1 = true ∨ s.pw.hold = true) ∧ ¬ (s.sec.cycle = 2 ∧ (s.reg 0x400E0000).getLsbD 2 = false)) ∧
      ¬ ((s.pw.hold = false ∧ slotBase s.pat.aslot ≤ a ∧ a < slotBase s.pat.aslot + s.patLen s.pat.aslot) ∨ s.pat.stage = some alt) ∧
      (0x1000 ≤ n.toNat ∨ Config.flashBytes ≤ a))
    ∧ (0 < Config.flashBytes → ∃ (s : State) (alt : Bool) (n : Half) (d : List Byte) (a : Nat), s.Inv ∧ s.host.conf = true ∧ s.usbOn = true ∧ s.sec.cycle ≠ 4 ∧ d ≠ [] ∧ d.length ≤ 0x1000 ∧
      (s.host.dfu = 2 ∨ s.host.dfu = 5) ∧ a = slotBase alt + n.toNat * 0x1000 ∧
      (((s.reg 0x400E0000).getLsbD 1 = true ∨ s.pw.hold = true) ∧ ¬ (s.sec.cycle = 2 ∧ (s.reg 0x400E0000).getLsbD 2 = false)) ∧
      ¬ ((s.pw.hold = false ∧ slotBase s.pat.aslot ≤ a ∧ a < slotBase s.pat.aslot + s.patLen s.pat.aslot) ∨ s.pat.stage = some alt) ∧
      ¬ (0x1000 ≤ n.toNat ∨ Config.flashBytes ≤ a))
    ∧ (∃ s : State, s.Inv ∧ s.host.conf = true ∧ s.usbOn = true ∧ s.sec.cycle ≠ 4 ∧ s.host.dfu = 5) ∧
      (∃ s : State, s.host.conf = true ∧ s.usbOn = true ∧ s.sec.cycle ≠ 4 ∧ s.host.dfu = 9)
    ∧ (∃ s : State, s.host.conf = false) ∧ (∃ s : State, s.host.conf = true ∧ s.usbOn = false) ∧ ∃ s : State, s.host.conf = true ∧ s.usbOn = true ∧ s.sec.cycle = 4 := by
  refine ⟨⟨{ wUsb (fun x => { x with dfu := 2 }) [] 0 with sec := { wS.sec with cycle := 2 } }, false, 0, [1], 0, inv_of (by decide +kernel), by decide +kernel⟩,
    ⟨wUsb (fun x => { x with dfu := 5 }) [] 0, false, 1, [1], 0x1000, inv_of (by decide +kernel), by decide +kernel⟩,
    ⟨{ wUsb (fun x => { x with dfu := 5 }) [] 0 with pw := { wS.pw with hold := true } }, false, 0x1000, [1], 0x1000000, inv_of (by decide +kernel), by decide +kernel, by decide +kernel,
      by decide +kernel, by decide +kernel, by decide +kernel, by decide +kernel, by decide +kernel, by decide +kernel, by decide +kernel, Or.inl (by decide)⟩,
    fun h => ⟨{ wUsb (fun x => { x with dfu := 2 }) [] 0 with pw := { wS.pw with hold := true } }, false, 0, [1], 0, inv_of (by decide +kernel), by decide +kernel, by decide +kernel,
      by decide +kernel, by decide +kernel, by decide +kernel, by decide +kernel, by decide +kernel, by decide +kernel, by decide +kernel, by simp; omega⟩,
    ⟨wUsb (fun x => { x with dfu := 5 }) [] 0, inv_of (by decide +kernel), by decide +kernel⟩, ⟨wUsb (fun x => { x with dfu := 9 }) [] 0, by decide +kernel⟩,
    ⟨wS, by decide +kernel⟩, ⟨{ wUsb id [] 0 with regs := [] }, by decide +kernel⟩,
    ⟨{ wUsb id [] 0 with sec := { wS.sec with cycle := 4 } }, by decide +kernel⟩⟩

/-! ## Witnesses: KSP (18) -/

/-- A device that both transports reach, or in Hold USB alone. -/
def wKsp (hold : Bool) (f : State → State) : State := f { wUsb id [] 0 with pw := { wS.pw with hold := hold } }
theorem test_wit_ksp_rows : KspRow .hello 1 true false ∧ KspRow .mread 0x10 false false ∧ KspRow .calwrite 0x41 true true ∧ KspRow .qclear 0x60 false true := by
  simp [KspRow]

theorem test_wit_ksp_refusals : (∀ tcp, ∃ (s : State) (d : List Byte) (t : Nat), s.Hears tcp d ∧ s.host.ksp = some (!tcp, t) ∧ s.now < t + 60000000000)
    ∧ (∀ hold, ∃ (s : State) (d : List Byte), s.Hears false d ∧ s.SessionFree false ∧ s.pw.hold = hold ∧ s.sec.cycle = 1)
    ∧ (∀ tcp, ∀ n ∈ [2, 4], ∃ (s : State) (d : List Byte), s.Hears tcp d ∧ s.SessionFree tcp ∧ s.pw.hold = false ∧ s.sec.cycle = n ∧ s.host.auth = false)
    ∧ (∃ (s : State) (d : List Byte) (t : Nat), s.Hears true d ∧ s.SessionFree true ∧ s.host.ksp = some (true, t))
    ∧ (∃ s : State, s.pw.booted = false ∧ s.host.ksp = none) ∧ (∃ s : State, s.pw.st ≠ 0 ∧ s.host.ksp = none)
    ∧ ∀ n ∈ [60000000000, 59999999999], ∃ (s : State) (tcp : Bool) (t : Nat), s.Inv ∧ s.host.ksp = some (tcp, t) ∧ s.now = t + n := by
  refine ⟨fun tcp => ?_, fun hold => ?_, fun tcp n hn => ?_, ⟨wKsp false fun s => { s with host := { s.host with ksp := some (true, 0) } }, [], 0, ?_, Or.inr ⟨0, ?_⟩, ?_⟩,
    ⟨State.reset, by decide +kernel⟩, ⟨wPw (fun y => { y with st := 1 }) [] 0, by decide +kernel⟩, fun n hn => ?_⟩
  · cases tcp
    · refine ⟨wKsp false fun s => { s with host := { s.host with ksp := some (true, 0) } }, [], 0, ?_⟩; unfold State.Hears; decide +kernel
    · refine ⟨wKsp false fun s => { s with host := { s.host with ksp := some (false, 0) } }, [], 0, ?_⟩; unfold State.Hears; decide +kernel
  · cases hold
    · refine ⟨wKsp false id, [], ?_, Or.inl ?_, ?_⟩ <;> (try unfold State.Hears) <;> decide +kernel
    · refine ⟨wKsp true id, [], ?_, Or.inl ?_, ?_⟩ <;> (try unfold State.Hears) <;> decide +kernel
  · simp only [List.mem_cons, List.not_mem_nil, or_false] at hn
    cases tcp <;> rcases hn with rfl | rfl
    · refine ⟨wKsp false fun s => { s with sec := { s.sec with cycle := 2 } }, [], ?_, Or.inl ?_, ?_⟩ <;> (try unfold State.Hears) <;> decide +kernel
    · refine ⟨wKsp false fun s => { s with sec := { s.sec with cycle := 4 } }, [], ?_, Or.inl ?_, ?_⟩ <;> (try unfold State.Hears) <;> decide +kernel
    · refine ⟨wKsp false fun s => { s with sec := { s.sec with cycle := 2 } }, [], ?_, Or.inl ?_, ?_⟩ <;> (try unfold State.Hears) <;> decide +kernel
    · refine ⟨wKsp false fun s => { s with sec := { s.sec with cycle := 4 } }, [], ?_, Or.inl ?_, ?_⟩ <;> (try unfold State.Hears) <;> decide +kernel
  · unfold State.Hears; decide +kernel
  · decide +kernel
  · decide +kernel
  · simp only [List.mem_cons, List.not_mem_nil, or_false] at hn
    rcases hn with rfl | rfl
    · exact ⟨wUsb (fun x => { x with ksp := some (false, 8) }) [] 60000000008, false, 8, inv_of (by decide +kernel), by decide +kernel⟩
    · exact ⟨wUsb (fun x => { x with ksp := some (true, 8) }) [] 60000000007, true, 8, inv_of (by decide +kernel), by decide +kernel⟩

/-- `Serves` as a check, without a session. -/
def servesB (s : State) (tcp : Bool) (d : List Byte) (inHold needs : Bool) : Bool :=
  s.pw.booted && decide (s.pw.st = 0) && decide (d.length ≤ 1024) && (if tcp then decide (s.pw.hold = false) else s.host.conf && s.usbOn) && decide (s.host.ksp = none)
    && (!s.pw.hold || inHold) && decide (s.sec.cycle ≠ 4) && decide (s.sec.cycle = 2 → needs = true → s.host.auth = true)

theorem serves_of {s : State} {tcp : Bool} {d : List Byte} {inHold needs : Bool} (h : servesB s tcp d inHold needs = true) : s.Serves tcp d inHold needs := by
  simp only [servesB, Bool.and_eq_true, decide_eq_true_eq, Bool.or_eq_true, Bool.not_eq_true'] at h
  obtain ⟨⟨⟨⟨⟨⟨⟨a, b⟩, c⟩, e⟩, f⟩, g⟩, i⟩, j⟩ := h
  refine ⟨⟨a, b, c, ?_⟩, Or.inl f, fun hh => ?_, i, j⟩
  · cases tcp <;> simpa using e
  · rcases g with g | g
    · rw [hh] at g; cases g
    · exact g

theorem test_wit_ksp_sessions : (∀ tcp, ∃ (s : State) (d : List Byte), s.Hears tcp d ∧ s.SessionFree tcp)
    ∧ (∀ n ∈ [0, 127, 128], ∃ (s : State) (tcp good : Bool) (d : List Byte), s.Serves tcp d true false ∧ s.Inv ∧
      (good = true ↔ d.length = 128 ∧ sha256 (d.take 64) = Config.otpKey 3 ∧
      P256.verify (sha256 (s.host.nonce ++ leBytes 4 (Config.suid 0).toNat ++ leBytes 4 (Config.suid 1).toNat)) (d.drop 64) (d.take 64) = true) ∧ d.length = n)
    ∧ (∀ h ∈ [(0 : Fin 64), 63], ∃ (s : State) (tcp : Bool) (d : List Byte) (x o n : Nat), s.Serves tcp d false false ∧ d.length = 6 ∧ x = (d.getD 0 0).toNat ∧ x < 4 ∧
      (d.getD 1 0).toNat = h.val ∧ o = leNat ((d.drop 2).take 2) ∧ n = leNat ((d.drop 4).take 2) ∧ n ≤ 1024 ∧ o < 0x1000 ∧ o + n ≤ 0x1000 ∧ s.viewPage x h = none)
    ∧ ∃ (s : State) (tcp : Bool) (d : List Byte) (x o n : Nat) (h : Hid) (p : Nat × Fin 3), s.Serves tcp d false false ∧ d.length = 6 ∧ x = (d.getD 0 0).toNat ∧ x < 4 ∧
    (d.getD 1 0).toNat = h.val ∧ o = leNat ((d.drop 2).take 2) ∧ n = leNat ((d.drop 4).take 2) ∧ n ≤ 1024 ∧ o < 0x1000 ∧ o + n ≤ 0x1000 ∧ s.viewPage x h = some p := by
  refine ⟨fun tcp => ⟨wKsp false id, [], ?_, Or.inl (by decide +kernel)⟩, fun n hn => ?_, fun h hh => ?_,
    ⟨wKsp false fun s => { s with ep := { s.ep with pgC := some 3, maps := Vector.replicate 64 ⟨some 1, none, none, none, none, some 2⟩ } }, true, [0, 7, 0xFF, 0xF, 1, 0], 0, 0xFFF, 1, 7,
      (3, 1), serves_of (by decide +kernel), by decide +kernel⟩⟩
  · cases tcp <;> (unfold State.Hears; decide +kernel)
  · classical
    refine ⟨wKsp true id, false, decide _, List.replicate n 0, serves_of ?_, inv_of (by decide +kernel), decide_eq_true_iff, by simp⟩
    simp only [List.mem_cons, List.not_mem_nil, or_false] at hn
    rcases hn with rfl | rfl | rfl <;> decide +kernel
  · simp only [List.mem_cons, List.not_mem_nil, or_false] at hh
    rcases hh with rfl | rfl
    · exact ⟨wKsp false id, true, [3, 0, 0, 0xC, 0, 4], 3, 0xC00, 0x400, serves_of (by decide +kernel), by decide +kernel⟩
    · exact ⟨wKsp false id, true, [0, 63, 0, 0, 0, 0], 0, 0, 0, serves_of (by decide +kernel), by decide +kernel⟩

theorem test_wit_ksp_flash : (∀ tcp, ∃ (s : State) (d : List Byte), s.Serves tcp d true false ∧ s.Inv)
    ∧ (∃ (s : State) (tcp : Bool) (d : List Byte) (o n : Nat), s.Serves tcp d true false ∧ d.length = 6 ∧ o = leNat (d.take 4) ∧ n = leNat ((d.drop 4).take 2) ∧
      (1024 < n ∨ Config.flashBytes < o + n))
    ∧ (∃ (s : State) (tcp : Bool) (d : List Byte) (o n : Nat), s.Serves tcp d true false ∧ d.length = 6 ∧ o = leNat (d.take 4) ∧ n = leNat ((d.drop 4).take 2) ∧
      ¬ (1024 < n ∨ Config.flashBytes < o + n))
    ∧ (0 < Config.flashBytes → ∀ hold, ∃ (s : State) (tcp : Bool) (d : List Byte) (o : Nat), s.Serves tcp d true true ∧ s.Inv ∧ 4 ≤ d.length ∧ o = leNat (d.take 4) ∧
      o % 0x1000 = 0 ∧ o < Config.flashBytes ∧
      (hold = false ↔ (s.pw.hold = false ∧ slotBase s.pat.aslot ≤ o ∧ o < slotBase s.pat.aslot + s.patLen s.pat.aslot))) := by
  refine ⟨fun tcp => ⟨wKsp false id, [], ?_, inv_of (by decide +kernel)⟩, ⟨wKsp true id, false, [0, 0, 0, 0, 1, 4], 0, 1025, serves_of (by decide +kernel), by decide, by decide, by decide,
    Or.inl (by decide)⟩, ⟨wKsp false id, true, [0, 0, 0, 0, 0, 0], 0, 0, serves_of (by decide +kernel), by decide, by decide, by decide, by simp⟩, fun h hold => ?_⟩
  · cases tcp <;> exact serves_of (by decide +kernel)
  · cases hold
    · exact ⟨wKsp false id, true, [0, 0, 0, 0, 7], 0, serves_of (by decide +kernel), inv_of (by decide +kernel), by decide, by decide, by decide, h, by decide +kernel⟩
    · exact ⟨wKsp true id, false, [0, 0, 0, 0, 7], 0, serves_of (by decide +kernel), inv_of (by decide +kernel), by decide, by decide, by decide, h, by decide +kernel⟩

theorem test_wit_ksp_patterns : (∀ b : Bool, ∃ (s : State) (tcp : Bool), s.Serves tcp [if b then 1 else 0] false true ∧ s.pat.stage = none)
    ∧ (CleanTo 256 → ∃ (s : State) (b : Bool) (c o : Nat), s.host.kstg = true ∧ s.pat.stage = some b ∧ s.headErr b = some (c, o) ∧ s.ReadsTo 256)
    ∧ ∀ e ∈ [(0 : Byte), 1, 2], ∃ (s : State) (tcp : Bool) (d : List Byte), s.Serves tcp d false true ∧ s.Inv ∧ d.length = 6 ∧ s.pat.stage = none ∧
    (s.pat.staged = true ∨ (s.sec.cycle = 1 ∧ s.pat.slc ≠ 0)) ∧ s.setOk (!s.dsel) = true ∧ s.shadowEntries = true ∧ s.ep.cur + e.toNat = leNat d := by
  refine ⟨fun b => ⟨wKsp false id, true, ?_, by decide +kernel⟩, fun hc => ?_, fun e he => ?_⟩
  · cases b <;> exact serves_of (by decide +kernel)
  · have hn : ∀ b, (wStg id { wS with host := { wS.host with kstg := true } }).patW b 0 ≠ 0x54505842 := by
      intro b
      cases b <;> decide +kernel
    obtain ⟨c, o, h⟩ := erased_headErr _ (hn false)
    exact ⟨_, false, c, o, by decide +kernel, by decide +kernel, h, hc⟩
  · refine ⟨{ wArm wGlob [(0, 0x8000), (4, 0x10000)] [(0x400E0000, 3)] id with host := { wS.host with conf := true, vbus := true } }, true, [e, 0, 0, 0, 0, 0], serves_of ?_,
      inv_of (by decide +kernel), rfl, by decide +kernel, by decide +kernel, by decide +kernel, by decide +kernel, ?_⟩
    · simp only [List.mem_cons, List.not_mem_nil, or_false] at he
      rcases he with rfl | rfl | rfl <;> decide +kernel
    · simp only [List.mem_cons, List.not_mem_nil, or_false] at he
      rcases he with rfl | rfl | rfl <;> decide +kernel

/-- The calibration record at 0x20E00 of the flash. -/
def wCal (hold : Bool) : State := (wKsp hold id).wr32 (flashKey 0x10) 0x20E00
def wRec (b : Byte) : List Byte := [b, 0x58, 0x43, 0x4C, 1, 0, 0, 2] ++ List.replicate 504 0
theorem test_wit_ksp_calibration : ∀ hold : Bool, ∀ b ∈ [(0x42 : Byte), 0x43], ∃ (s : State) (tcp : Bool) (d : List Byte), s.Serves tcp d true true ∧ s.Inv ∧ d.length = 512 ∧
    s.calp % 0x1000 ≤ 0xE00 ∧ ((leNat (d.take 4) = 0x4C435842 ∧ leNat ((d.drop 4).take 4) = 0x02000001) ↔ b = 0x42) ∧
    ((s.pw.hold = false ∧ slotBase s.pat.aslot ≤ s.calp ∧ s.calp < slotBase s.pat.aslot + s.patLen s.pat.aslot) ↔ hold = false) := by
  intro hold b hb
  simp only [List.mem_cons, List.not_mem_nil, or_false] at hb
  cases hold <;> rcases hb with rfl | rfl
  · exact ⟨wCal false, true, wRec 0x42, serves_of (by decide +kernel), inv_of (by decide +kernel), by decide +kernel⟩
  · exact ⟨wCal false, true, wRec 0x43, serves_of (by decide +kernel), inv_of (by decide +kernel), by decide +kernel⟩
  · exact ⟨wCal true, false, wRec 0x42, serves_of (by decide +kernel), inv_of (by decide +kernel), by decide +kernel⟩
  · exact ⟨wCal true, false, wRec 0x43, serves_of (by decide +kernel), inv_of (by decide +kernel), by decide +kernel⟩

theorem test_wit_ksp_fuses : (∀ hold : Bool, ∀ n ∈ [0, 1], ∃ (s : State) (tcp : Bool) (d : List Byte), s.Serves tcp d true false ∧ s.Inv ∧ s.pw.hold = hold ∧ s.sec.cycle = n)
    ∧ ∃ (s : State) (tcp : Bool) (d : List Byte), s.Serves tcp d false true ∧ d.length = 12 := by
  refine ⟨fun hold n hn => ?_, ⟨wKsp false id, true, List.replicate 12 0xFF, serves_of (by decide +kernel), by decide⟩⟩
  simp only [List.mem_cons, List.not_mem_nil, or_false] at hn
  cases hold <;> rcases hn with rfl | rfl
  · exact ⟨wKsp false fun s => { s with sec := { s.sec with cycle := 0 } }, false, [], serves_of (by decide +kernel), inv_of (by decide +kernel), by decide +kernel⟩
  · exact ⟨wKsp false id, false, [], serves_of (by decide +kernel), inv_of (by decide +kernel), by decide +kernel⟩
  · exact ⟨wKsp true fun s => { s with sec := { s.sec with cycle := 0 } }, false, [], serves_of (by decide +kernel), inv_of (by decide +kernel), by decide +kernel⟩
  · exact ⟨wKsp true id, false, [], serves_of (by decide +kernel), inv_of (by decide +kernel), by decide +kernel⟩

/-! ## Witnesses: serial ports, GPIO, the step (18) -/

theorem test_wit_i2c : (∃ (s : State) (w : Who), s.ReachesGs w 0x400F0084 ∧ s.host.i2c = none) ∧ (∃ (s : State) (w : Who), s.ReachesGs w 0x400F0084 ∧ s.host.i2c ≠ none)
    ∧ (∀ n ∈ [0, 15, 16, 31], ∃ (s : State) (c : Word) (t : Nat), s.Inv ∧ s.host.i2c = some (c, t) ∧ s.pw.st < 2 ∧ fld c 16 5 = n)
    ∧ (∀ n ∈ [25000000, 24999999], ∃ (s : State) (c : Word) (t : Nat), s.host.i2c = some (c, t) ∧ s.now = t + n) ∧ ∃ s : State, s.host.i2c = none := by
  refine ⟨⟨wS, wG, gs_of (by decide +kernel), by decide +kernel⟩, ⟨wUsb (fun x => { x with i2c := some (0, 0) }) [] 0, wG, gs_of (by decide +kernel), by decide +kernel⟩,
    fun n hn => ?_, fun n hn => ?_, ⟨wS, by decide +kernel⟩⟩
  · simp only [List.mem_cons, List.not_mem_nil, or_false] at hn
    rcases hn with rfl | rfl | rfl | rfl
    · exact ⟨wUsb (fun x => { x with i2c := some (0, 0) }) [] 0, 0, 0, inv_of (by decide +kernel), by decide +kernel⟩
    · exact ⟨wUsb (fun x => { x with i2c := some (0xF0000, 0) }) [] 0, 0xF0000, 0, inv_of (by decide +kernel), by decide +kernel⟩
    · exact ⟨wUsb (fun x => { x with i2c := some (0x100000, 0) }) [] 0, 0x100000, 0, inv_of (by decide +kernel), by decide +kernel⟩
    · exact ⟨wUsb (fun x => { x with i2c := some (0x1F0000, 0) }) [] 0, 0x1F0000, 0, inv_of (by decide +kernel), by decide +kernel⟩
  · simp only [List.mem_cons, List.not_mem_nil, or_false] at hn
    rcases hn with rfl | rfl
    · exact ⟨wUsb (fun x => { x with i2c := some (0, 9) }) [] 25000009, 0, 9, by decide +kernel⟩
    · exact ⟨wUsb (fun x => { x with i2c := some (0, 9) }) [] 25000008, 0, 9, by decide +kernel⟩

/-- Both UARTs with `n` bytes in their FIFOs and a configuration. -/
def wUart (n : Nat) (c : Word) : State :=
  { wUsb (fun x => { x with urx := Vector.replicate 2 (List.replicate n 5), utx := Vector.replicate 2 (List.replicate n 5) }) [] 0 with
    regs := [(0x400F0100, c), (0x400F0140, c)] }
theorem test_wit_uart : (∀ u : Fin 2, ∃ s : State, s.Inv ∧ (s.reg (0x400F0100 + 0x40 * u.val)).getLsbD 19 = false) ∧ (∃ s : State, s.Inv ∧ 2 ≤ s.pw.st)
    ∧ (∀ u : Fin 2, ∀ n ∈ [0, 15, 16], ∃ (s : State) (w : Who), s.Inv ∧ (s.reg (0x400F0100 + 0x40 * u.val)).getLsbD 19 = true ∧ s.pw.st < 2 ∧ s.host.urx[u].length = n ∧ s.host.utx[u].length = n ∧
      s.Reaches w (0x400F0108 + 0x40 * u.val) false ∧ s.ReachesGs w (0x400F0104 + 0x40 * u.val))
    ∧ ∃ (s : State) (w : Who) (u : Fin 2) (b : Byte) (r : List Byte), s.Reaches w (0x400F0108 + 0x40 * u.val) false ∧ s.host.urx[u] = b :: r := by
  refine ⟨fun u => ⟨wS, inv_of (by decide +kernel), ?_⟩, ⟨wPw (fun y => { y with st := 2 }) [] 0, inv_of (by decide +kernel), by decide +kernel⟩, fun u n hn => ?_, ⟨wUart 3 0x80002, wP, 1, 5, [5, 5], reaches_of (by decide +kernel), by decide +kernel⟩⟩
  · revert u
    decide +kernel
  · have hu : u = 0 ∨ u = 1 := by omega
    simp only [List.mem_cons, List.not_mem_nil, or_false] at hn
    rcases hn with rfl | rfl | rfl <;> rcases hu with rfl | rfl
    · exact ⟨wUart 0 0x80002, wG, inv_of (by decide +kernel), by decide +kernel, by decide, by decide +kernel, by decide +kernel, reaches_of (by decide +kernel), gs_of (by decide +kernel)⟩
    · exact ⟨wUart 0 0x80002, wG, inv_of (by decide +kernel), by decide +kernel, by decide, by decide +kernel, by decide +kernel, reaches_of (by decide +kernel), gs_of (by decide +kernel)⟩
    · exact ⟨wUart 15 0x80002, wG, inv_of (by decide +kernel), by decide +kernel, by decide, by decide +kernel, by decide +kernel, reaches_of (by decide +kernel), gs_of (by decide +kernel)⟩
    · exact ⟨wUart 15 0x80002, wG, inv_of (by decide +kernel), by decide +kernel, by decide, by decide +kernel, by decide +kernel, reaches_of (by decide +kernel), gs_of (by decide +kernel)⟩
    · exact ⟨wUart 16 0x80002, wG, inv_of (by decide +kernel), by decide +kernel, by decide, by decide +kernel, by decide +kernel, reaches_of (by decide +kernel), gs_of (by decide +kernel)⟩
    · exact ⟨wUart 16 0x80002, wG, inv_of (by decide +kernel), by decide +kernel, by decide, by decide +kernel, by decide +kernel, reaches_of (by decide +kernel), gs_of (by decide +kernel)⟩

/-- GPIO registers given. -/
def wGp (r : List (Nat × Word)) (pins : Word) : State := { wUsb (fun x => { x with gpin := pins }) [] 0 with regs := r }
theorem test_wit_gpio : (∀ n ∈ [(0 : Fin 32), 31], ∀ x : Bool, ∃ s : State, s.Inv ∧ s.pw.st = 0 ∧ s.pw.sleep = none ∧ (s.reg 0x400F0000).getLsbD n.val = false ∧ (s.reg 0x400F0014).getLsbD n.val = true ∧
      (x = (s.reg 0x400F001C).getLsbD n.val ∧ (s.host.gpin.getLsbD n.val ≠ x ∨ (s.reg 0x400F0018).getLsbD n.val = false)))
    ∧ (∃ (s : State) (n : Fin 32), 2 ≤ s.pw.st ∧ 4 ≤ n.val)
    ∧ (∀ st ∈ [1, 2], ∃ (s : State) (n : Nat) (x : Bool), s.Inv ∧ n < 4 ∧ s.pw.st = st ∧ (s.reg 0x40100014).getLsbD (4 + n) = true ∧
      (s.reg 0x40100014).getLsbD (12 + n) = x ∧ s.host.gpin.getLsbD n ≠ x)
    ∧ ∃ (s : State) (n : Fin 32) (x : Bool), s.Inv ∧ s.pw.st < 2 ∧ 4 ≤ n.val ∧ (s.reg 0x400F0000).getLsbD n.val = false ∧
      ¬ (x = (s.reg 0x400F001C).getLsbD n.val ∧ (s.host.gpin.getLsbD n.val ≠ x ∨ (s.reg 0x400F0018).getLsbD n.val = false)) := by
  refine ⟨fun n hn x => ?_, ⟨wPw (fun y => { y with st := 2 }) [] 0, 4, by decide +kernel⟩, fun st hst => ?_, ⟨wGp [(0x400F0018, 0x80000000), (0x400F001C, 0x80000000)] 0x80000000, 31, true, inv_of (by decide +kernel), by decide +kernel⟩⟩
  all_goals simp only [List.mem_cons, List.not_mem_nil, or_false] at *
  rcases hn with rfl | rfl <;> cases x
  · exact ⟨wGp [(0x400F0014, 0x80000001), (0x400F0018, 1)] 1, inv_of (by decide +kernel), by decide +kernel⟩
  · exact ⟨wGp [(0x400F0014, 0x80000001), (0x400F001C, 1)] 1, inv_of (by decide +kernel), by decide +kernel⟩
  · exact ⟨wGp [(0x400F0014, 0x80000001), (0x400F0018, 0x80000000)] 0x80000000, inv_of (by decide +kernel), by decide +kernel⟩
  · exact ⟨wGp [(0x400F0014, 0x80000001), (0x400F0018, 0x80000000), (0x400F001C, 0x80000000)] 0, inv_of (by decide +kernel), by decide +kernel⟩
  · rcases hst with rfl | rfl
    · exact ⟨wPw (fun y => { y with st := 1 }) [(0x40100014, 0x8080)] 0, 3, true, inv_of (by decide +kernel), by decide +kernel⟩
    · exact ⟨wPw (fun y => { y with st := 2 }) [(0x40100014, 0x1010)] 0, 0, true, inv_of (by decide +kernel), by decide +kernel⟩

theorem test_wit_step : (∃ (c : Instr) (s : State) (r : List Instr), s.pending = c :: r) ∧ ∃ (c : Instr) (s t : State), s.Inv ∧ exec c s = .next t :=
  ⟨⟨.por, { wS with pending := [.por, .bow] }, [.bow], rfl⟩, ⟨.backBias, wS, _, inv_of (by decide +kernel), rfl⟩⟩

/-- Whether nothing but time and a UART has work to do. -/
theorem quiet_of {s : State} (h : decide (s.pending = [] ∧ s.pw.sleep = none ∧ s.hub.outs = [] ∧ (∀ p : Fin 4, (s.lk.ports[p]).queue = []) ∧ s.pw.rst = none) = true) : s.Quiet := by
  unfold State.Quiet
  exact of_decide_eq_true h

/-- An empty queue with the rate accumulator given. -/
def wIdle (st : Nat) (a : Int) : State := { wPw (fun y => { y with st := st }) [] 0 with ep := { wS.ep with rateAcc := a } }
theorem test_wit_idle : (∀ c ∈ [((2 : Nat), (0 : Int)), (3, 171798691840), (0, 0), (1, 171798691840), (0, 171798691839), (0, -171798691840), (1, -171798691839)],
      ∃ (s : State) (a : Int), s.Quiet ∧ (∀ u : Fin 2, s.host.utx[u] = []) ∧ a = s.ep.rateAcc + s.tdRate ∧ s.pw.st = c.1 ∧ a = c.2)
    ∧ ∃ (s : State) (b : Byte) (r : List Byte) (n : Nat), s.Quiet ∧ 2 ≤ s.pw.st ∧
    s.host.utx[(0 : Fin 2)] = b :: r ∧ s.host.utx[(1 : Fin 2)] = [] ∧ (s.reg 0x400F0100).getLsbD 19 = true ∧ fld (s.reg 0x400F0100) 16 3 = 0 ∧
    n = fld (s.reg 0x400F0100) 0 16 ∧ 2 ≤ n ∧ s.host.utxAt[(0 : Fin 2)] + 10 * 16 * n * 10 / 3 ≤ s.now + 8 := by
  refine ⟨fun c hc => ?_, ⟨{ wPw (fun y => { y with st := 2 }) [(0x400F0100, 0x80002)] 1058 with host := { wS.host with utx := wS.host.utx.set 0 [7] } }, 7, [], 2, quiet_of (by decide +kernel), by decide +kernel⟩⟩
  simp only [List.mem_cons, List.not_mem_nil, or_false] at hc
  rcases hc with rfl | rfl | rfl | rfl | rfl | rfl | rfl
  · exact ⟨wIdle 2 0, 0, quiet_of (by decide +kernel), by decide +kernel⟩
  · exact ⟨wIdle 3 171798691840, 171798691840, quiet_of (by decide +kernel), by decide +kernel⟩
  · exact ⟨wIdle 0 0, 0, quiet_of (by decide +kernel), by decide +kernel⟩
  · exact ⟨wIdle 1 171798691840, 171798691840, quiet_of (by decide +kernel), by decide +kernel⟩
  · exact ⟨wIdle 0 171798691839, 171798691839, quiet_of (by decide +kernel), by decide +kernel⟩
  · exact ⟨wIdle 0 (-171798691840), -171798691840, quiet_of (by decide +kernel), by decide +kernel⟩
  · exact ⟨wIdle 1 (-171798691839), -171798691839, quiet_of (by decide +kernel), by decide +kernel⟩

/-! ## Commands that are not well formed, one for each check -/

/-- A frame whose every field fits, and the same with one that does not. -/
def wBig : Frame := ⟨0x20, 3, true, true, true, 3, 0x3FFF, 0x3FFF, 255, 255, 1023, 63, 0xFF, 0xFFFFFFFF, List.replicate 64 0, 0, 0, false, false, false⟩

theorem test_wf_frame : (Instr.rd 0 wBig).wf = true
    ∧ (Instr.rd 0 { wBig with tc := 4 }).wf = false ∧ (Instr.rdr 0 { wBig with gen := 4 }).wf = false
    ∧ (Instr.wr 0 { wBig with hops := 256 }).wf = false ∧ (Instr.halo 0 { wBig with lseq := 256 }).wf = false
    ∧ (Instr.atReq 0 { wBig with tag := 1024 }).wf = false ∧ (Instr.mb 0 { wBig with hrt := 64 }).wf = false
    ∧ (Instr.eseal 0 { wBig with payload := List.replicate 65 0 }).wf = false := by decide

theorem test_wf_lists : (Instr.dfuDownload true 0xFFFF (List.replicate 4097 0)).wf = false
    ∧ (Instr.bulkOut (List.replicate 65 0)).wf = false ∧ (Instr.bulkOut (List.replicate 64 0)).wf = true
    ∧ (Instr.i2cCommandDone 0 (List.replicate 17 0)).wf = false ∧ (Instr.i2cCommandDone 0 (List.replicate 16 0)).wf = true := by decide +kernel

theorem test_wf_messages : (Instr.hello false (List.replicate 1024 0)).wf = true ∧ (Instr.hello false (List.replicate 1025 0)).wf = false
    ∧ (Instr.fwrite true (List.replicate 1025 0)).wf = false ∧ (Instr.qclear true (List.replicate 1025 0)).wf = false := by decide +kernel

theorem test_wf_numbers : (Instr.timeout 1023).wf = true ∧ (Instr.timeout 1024).wf = false ∧ (Instr.wake 19).wf = true
    ∧ (Instr.wake 20).wf = false ∧ (Instr.bulkIn 64).wf = true ∧ (Instr.bulkIn 65).wf = false := by decide

/-! ## The algorithms of the standards that the spec names -/

/-- FIPS 180-2, appendix B.1: the digest of "abc". -/
theorem test_sha256 : sha256 [0x61, 0x62, 0x63] = beBytes 32 0xba7816bf8f01cfea414140de5dae2223b00361a396177a9cb410ff61f20015ad := by decide +kernel

/-- A signature with the private key 1 and the nonce 5, worked out outside Lean. -/
theorem test_p256 :
    let key := beBytes 32 0x6b17d1f2e12c4247f8bce6e563a440f277037d812deb33a0f4a13945d898c296 ++ beBytes 32 0x4fe342e2fe1a7f9b8ee7eb4a7c0f9e162bce33576b315ececbb6406837bf51f5
    let z := beBytes 32 0xfa059136f9f9e13cc3472c810c99d7cfc5c641d28295a6f8abdcd47623e9e08c
    let s := beBytes 32 0xa8ac85bca8a8a069ebc2642b043347efd639bed56339c1d48a878a686019ac9f
    P256.verify z (beBytes 32 0x51590b7a515140d2d784c85608668fdfef8c82fd1f5be52421554a0dc3d033ed ++ s) key = true := by decide +kernel

/-! ## Small steps on values that the spec works out -/

/-- What the last operation in flight of hearth 0 delivers, and whether it sets SOV, DOV and DVZ, after a command on a
running hearth whose every operand socket holds `o`. -/
def wRes (o : Word) (i : Instr) : Option (FlightKind × Bool × Bool × Bool) :=
  match exec i (wH fun x => { x with op := Vector.replicate 13 o }) with
  | .next t => (t.hearth 0).flights.getLast?.map fun f => (f.kind, f.sov, f.dov, f.dvz)
  | _ => none

/-- Table OC-8: 0x7FFF_FFFF + 1 wraps for add and clamps for adds. -/
theorem test_add_wraps : wRes 1 (.add 0 0 0x7FFFFFFF) = some (.one 0 0x80000000, false, false, false) := by decide +kernel
theorem test_adds_clamps : wRes 1 (.adds 0 1 0x7FFFFFFF) = some (.one 1 0x7FFFFFFF, true, false, false) := by decide +kernel
theorem test_sub_order : wRes 3 (.sub 0 0 5) = some (.one 0 2, false, false, false) ∧ wRes 3 (.rsub 0 0 5) = some (.one 0 0xFFFFFFFE, false, false, false) := by
  decide +kernel
theorem test_subus_floor : wRes 5 (.subus 0 0 3) = some (.one 0 0, true, false, false) := by decide +kernel
theorem test_neg_abs : wRes 0 (.neg 0 0 0x80000000) = some (.one 0 0x80000000, true, false, false)
    ∧ wRes 0 (.abss 0 0 0x80000000) = some (.one 0 0x7FFFFFFF, true, false, false) := by decide +kernel
theorem test_addsH2_lanes : wRes 0x00010001 (.addsH2 0 0 0x7FFF0001) = some (.one 0 0x7FFF0002, true, false, false) := by decide +kernel
theorem test_shl_amount : wRes 0x40 (.shl 0 0x1234) = some (.one 2 0x1234, false, false, false) ∧ wRes 0x20 (.shl 0 0x1234) = some (.one 2 0, false, false, false) := by
  decide +kernel
theorem test_sar_fills : wRes 33 (.sar 0 0x80000000) = some (.one 2 0xFFFFFFFF, false, false, false) := by decide +kernel
theorem test_ror_amount : wRes 0x20 (.ror 0 0x12345678) = some (.one 2 0x12345678, false, false, false) := by decide +kernel
theorem test_sarr_rounds : wRes 1 (.sarr 0 0xFFFFFFFB) = some (.one 2 0xFFFFFFFE, false, false, false)
    ∧ wRes 40 (.sarr 0 0xFFFFFFFB) = some (.one 2 0, false, false, false) := by decide +kernel
theorem test_clz_zero : wRes 0 (.clz 0 0) = some (.one 2 32, false, false, false) := by decide +kernel
theorem test_mulq_clamps : wRes 0x80000000 (.mulq 0 0x80000000) = some (.two 3 4 0x7FFFFFFF 0, true, false, false) := by decide +kernel
theorem test_bit_number : wRes 0x20 (.bit 0 1) = some (.one 7 1, false, false, false) ∧ wRes 0 (.tst 0 0xFFFFFFFF) = some (.one 7 0, false, false, false) := by
  decide +kernel

/-- The example of R126 and R127: −7 by 2. -/
theorem test_div_truncates : wRes 2 (.div 0 0xFFFFFFF9) = some (.two 5 6 0xFFFFFFFD 0xFFFFFFFF, false, false, false) := by decide +kernel
theorem test_rem_floors : wRes 2 (.rem 0 0xFFFFFFF9) = some (.two 5 6 0xFFFFFFFC 1, false, false, false) := by decide +kernel

/-- The filter of Table OC-9: its two mac.h2 and its rounded read. -/
theorem test_mac_filter : accFinal .macH2 0 0x07D003E8 0x40002000 = (0x02710000, 0, 40960000, false)
    ∧ accFinal .macH2 40960000 0x1004F448 0xF0002000 = (0xFFF9C000, 0xFFFFFFFF, 0xFFFFFFF9C000, false)
    ∧ (accFinal .accrH 0xFFFFFFF9C000 15 0).1 = 0xFFFFFFF4 := by decide +kernel

end Sys2Proof.Tests
end

section
/-!
SUPPORT. The bit-level vocabulary of 04 (fields, lanes, two's complement reading, clamping) in terms of bit vectors: each
helper of the model that computes on exact integers is tied here to the bit-vector operation that the statements name.
-/
namespace Sys2Proof.Machine
open Sys2Proof

/-! ## Exact integers taken to a word -/

/-- The low bits of an exact integer may be taken at once or through a wider field. -/
theorem setWidth_ofInt {n m : Nat} (h : n ≤ m) (x : Int) : (BitVec.ofInt m x).setWidth n = BitVec.ofInt n x := by
  have hdvd : (2 : Int) ^ n ∣ 2 ^ m := pow_dvd_pow 2 h
  have hm : 0 ≤ x % (2 : Int) ^ m := Int.emod_nonneg x (by positivity)
  have hn : 0 ≤ x % (2 : Int) ^ n := Int.emod_nonneg x (by positivity)
  apply BitVec.eq_of_toNat_eq
  zify
  simp [hm, hn, Int.emod_emod_of_dvd x hdvd]

theorem ofInt_sub (n : Nat) (x y : Int) : BitVec.ofInt n (x - y) = BitVec.ofInt n x - BitVec.ofInt n y := by
  rw [sub_eq_add_neg, BitVec.ofInt_add, BitVec.ofInt_neg, ← BitVec.sub_eq_add_neg]

theorem ofInt_toNat {n : Nat} (a : BitVec n) : BitVec.ofInt n (a.toNat : Int) = a := by
  rw [BitVec.ofInt_natCast, BitVec.ofNat_toNat, BitVec.setWidth_eq]

theorem emod_mul_ediv (x b : Int) {a : Int} (ha : 0 < a) : x % (a * b) / a = x / a % b := by
  rw [Int.emod_def, Int.emod_def, ← Int.ediv_ediv_of_nonneg ha.le, sub_eq_add_neg, ← mul_neg, mul_assoc,
    Int.add_mul_ediv_left _ _ ha.ne']
  ring

/-- The `m` bits above the low `k` bits of an exact integer are those of its floor by 2^k. -/
theorem extractLsb'_ofInt (k m : Nat) (x : Int) :
    (BitVec.ofInt (k + m) x).extractLsb' k m = BitVec.ofInt m (x / 2 ^ k) := by
  have hkm : 0 ≤ x % (2 : Int) ^ (k + m) := Int.emod_nonneg x (by positivity)
  have hm : 0 ≤ x / 2 ^ k % (2 : Int) ^ m := Int.emod_nonneg _ (by positivity)
  have hcut : x % 2 ^ (k + m) / 2 ^ k % 2 ^ m = x / 2 ^ k % (2 : Int) ^ m := by
    rw [pow_add, emod_mul_ediv x _ (by positivity), Int.emod_emod_of_dvd _ dvd_rfl]
  apply BitVec.eq_of_toNat_eq
  zify
  simpa [Nat.shiftRight_eq_div_pow, hkm, hm] using hcut

theorem ofNat_mul_two_pow (w x n : Nat) : BitVec.ofNat w (x * 2 ^ n) = BitVec.ofNat w x <<< n := by
  apply BitVec.eq_of_toNat_eq
  simp [Nat.shiftLeft_eq]

theorem ofNat_toNat_mul_two_pow {w : Nat} (x : BitVec w) (n : Nat) : BitVec.ofNat w (x.toNat * 2 ^ n) = x <<< n := by
  rw [ofNat_mul_two_pow, BitVec.ofNat_toNat, BitVec.setWidth_eq]

theorem ofNat_toNat_div_two_pow {w : Nat} (x : BitVec w) (n : Nat) : BitVec.ofNat w (x.toNat / 2 ^ n) = x >>> n := by
  rw [← Nat.shiftRight_eq_div_pow, ← BitVec.toNat_ushiftRight, BitVec.ofNat_toNat, BitVec.setWidth_eq]

theorem ofNat_trunc (w : Nat) (x : Int) : BitVec.ofNat 32 (trunc w x) = (BitVec.ofInt w x).setWidth 32 := by
  rw [← BitVec.ofNat_toNat]
  simp [trunc]

theorem fld_zero (w : Word) (n : Nat) : fld w 0 n = w.toNat % 2 ^ n := by
  rw [fld, pow_zero, Nat.div_one]

/-- Two's complement reading of the bits of a vector is its signed value. -/
theorem sgn_toNat {w : Nat} (x : BitVec w) : sgn w x.toNat = x.toInt := by
  rcases w with - | w
  · simp [BitVec.of_length_zero, sgn]
  · have hhalf : x.toNat < 2 ^ w ↔ 2 * x.toNat < 2 ^ (w + 1) := by rw [pow_succ]; omega
    simp only [sgn, BitVec.toInt_eq_toNat_cond, Nat.add_sub_cancel, hhalf, Nat.cast_pow, Nat.cast_ofNat]

theorem sext8_toNat (x : Word) : sext8 x.toNat = (x.setWidth 8).signExtend 32 := by
  rw [sext8, ← BitVec.toNat_setWidth, sgn_toNat]
  rfl

/-- The model's sign extension of the half of `x` above its low `k` bits. -/
theorem sext16_div_two_pow {n : Nat} (x : BitVec n) (k : Nat) :
    sext16 (x.toNat / 2 ^ k) = (x.extractLsb' k 16).signExtend 32 := by
  rw [sext16, ← Nat.shiftRight_eq_div_pow, ← BitVec.extractLsb'_toNat, sgn_toNat]
  rfl

theorem ofInt_floorShr_toInt {w : Nat} (x : BitVec w) (n : Nat) :
    BitVec.ofInt w (floorShr x.toInt n) = x.sshiftRight n := by
  rw [floorShr, BitVec.sshiftRight, Int.shiftRight_eq_div_pow]
  norm_cast

/-! ## Lanes (R113) -/

theorem lane_eq_toNat (x : Word) (i w : Nat) : lane x i w = (x.extractLsb' (i * w) w).toNat := by
  simp [lane, fld, Nat.shiftRight_eq_div_pow]

theorem slane_eq_toInt (x : Word) (i w : Nat) : slane x i w = (x.extractLsb' (i * w) w).toInt := by
  rw [slane, lane_eq_toNat, sgn_toNat]

theorem append_four_eq_or (d c b a : Byte) :
    (d ++ c ++ b ++ a : Word) = d.setWidth 32 <<< 24 ||| c.setWidth 32 <<< 16 ||| b.setWidth 32 <<< 8 ||| a.setWidth 32 :=
  (BitVec.setWidth_eq (d ++ c ++ b ++ a)).symm.trans BitVec.setWidth_append_append_append_eq_shiftLeft_setWidth_or

theorem append_two_eq_or (b a : Half) : (b ++ a : Word) = b.setWidth 32 <<< 16 ||| a.setWidth 32 :=
  (BitVec.setWidth_eq (b ++ a)).symm.trans BitVec.setWidth_append_eq_shiftLeft_setWidth_or

/-- A lane operation on four bytes acts on each byte by itself, and sets SOV where some byte clamps (R113, R116). -/
theorem lanes_four_eq {f : Nat → Int × Bool} {g : Byte → Byte → Byte} {p : Byte → Byte → Bool} {t o : Word}
    (hf : ∀ i, (BitVec.ofInt 8 (f i).1, (f i).2) =
      (g (t.extractLsb' (i * 8) 8) (o.extractLsb' (i * 8) 8), p (t.extractLsb' (i * 8) 8) (o.extractLsb' (i * 8) 8))) :
    lanes 4 8 f = (onBytes g t o, someByte p t o) := by
  obtain ⟨hval, hsov⟩ := forall_and.mp fun i => Prod.mk.inj (hf i)
  have hrange : List.range 4 = [0, 1, 2, 3] := rfl
  simp only [lanes, hrange, w32, ofNat_mul_two_pow, ofNat_trunc, List.foldl_cons, List.foldl_nil, List.any_cons, List.any_nil,
    onBytes, someByte, append_four_eq_or, hval, hsov]
  simp [BitVec.or_comm, BitVec.or_assoc, Bool.or_comm]

/-- The same of the two halves of a word. -/
theorem lanes_two_eq {f : Nat → Int × Bool} {g : Half → Half → Half} {p : Half → Half → Bool} {t o : Word}
    (hf : ∀ i, (BitVec.ofInt 16 (f i).1, (f i).2) =
      (g (t.extractLsb' (i * 16) 16) (o.extractLsb' (i * 16) 16), p (t.extractLsb' (i * 16) 16) (o.extractLsb' (i * 16) 16))) :
    lanes 2 16 f = (onHalves g t o, someHalf p t o) := by
  obtain ⟨hval, hsov⟩ := forall_and.mp fun i => Prod.mk.inj (hf i)
  have hrange : List.range 2 = [0, 1] := rfl
  simp only [lanes, hrange, w32, ofNat_mul_two_pow, ofNat_trunc, List.foldl_cons, List.foldl_nil, List.any_cons, List.any_nil,
    onHalves, someHalf, append_two_eq_or, hval, hsov]
  simp [BitVec.or_comm, Bool.or_comm]

/-! ## Clamping: `sat` of 04 -/

theorem sat_eq {lo hi : Int} (h : lo ≤ hi) (x : Int) :
    sat x lo hi = (max lo (min hi x), decide (x < lo) || decide (hi < x)) := by
  unfold sat clampI
  congr 1
  split_ifs <;> omega

/-- Clamping to the least and the greatest value of a signed field. -/
theorem sat_signed {n : Nat} {lo hi : Int} (hlo : lo = -2 ^ (n - 1)) (hhi : hi = 2 ^ (n - 1) - 1) (x : Int) :
    (BitVec.ofInt n (sat x lo hi).1, (sat x lo hi).2) = (clampTo n x, outOf n x) := by
  have hpos : (0 : Int) < 2 ^ (n - 1) := by positivity
  rw [sat_eq (by omega), hlo, hhi]
  rfl

theorem satW_signed (x : Int) : satW x (-2147483648) 2147483647 = (clampTo 32 x, outOf 32 x) :=
  sat_signed rfl rfl x

theorem toInt_clampTo {n : Nat} (hn : 0 < n) (x : Int) :
    (clampTo n x).toInt = max (-2 ^ (n - 1)) (min (2 ^ (n - 1) - 1) x) := by
  have hpos : (0 : Int) < 2 ^ (n - 1) := by positivity
  exact BitVec.toInt_ofInt_eq_self hn (by omega) (by omega)

theorem outOf_add {n : Nat} (a b : BitVec n) : outOf n (a.toInt + b.toInt) = a.saddOverflow b := by
  simp [outOf, BitVec.saddOverflow, Bool.or_comm]

theorem outOf_sub {n : Nat} (a b : BitVec n) : outOf n (a.toInt - b.toInt) = a.ssubOverflow b := by
  simp [outOf, BitVec.ssubOverflow, Bool.or_comm]

theorem sat_unsigned_add {n : Nat} {hi : Int} (hhi : hi = 2 ^ n - 1) (a b : BitVec n) :
    (BitVec.ofInt n (sat ((a.toNat : Int) + b.toNat) 0 hi).1, (sat ((a.toNat : Int) + b.toNat) 0 hi).2) =
      (if a.uaddOverflow b then BitVec.allOnes n else a + b, a.uaddOverflow b) := by
  have hpow : ((2 ^ n : Nat) : Int) = 2 ^ n := by simp
  have hn : 0 < 2 ^ n := Nat.two_pow_pos n
  rw [sat_eq (by omega), hhi]
  by_cases hov : 2 ^ n ≤ a.toNat + b.toNat
  · have hmax : max 0 (min (2 ^ n - 1) ((a.toNat : Int) + b.toNat)) = ((2 ^ n - 1 : Nat) : Int) := by omega
    have hlt : (2 : Int) ^ n - 1 < a.toNat + b.toNat := by omega
    have hones : BitVec.ofInt n ((2 ^ n - 1 : Nat) : Int) = BitVec.allOnes n := by
      rw [BitVec.ofInt_natCast]
      exact BitVec.eq_of_toNat_eq (by simp [Nat.mod_eq_of_lt (Nat.sub_lt hn Nat.one_pos)])
    simp only [hmax, hones, BitVec.uaddOverflow, hov, hlt]
    simp
  · have hmax : max 0 (min (2 ^ n - 1) ((a.toNat : Int) + b.toNat)) = ((a.toNat + b.toNat : Nat) : Int) := by omega
    have hlt : ¬ (2 : Int) ^ n - 1 < a.toNat + b.toNat := by omega
    have hnonneg : (0 : Int) ≤ a.toNat + b.toNat := by omega
    simp [BitVec.uaddOverflow, hov, hlt, hmax, hnonneg, BitVec.ofInt_add]

theorem sat_unsigned_sub {n : Nat} {hi : Int} (hhi : hi = 2 ^ n - 1) (a b : BitVec n) :
    (BitVec.ofInt n (sat ((a.toNat : Int) - b.toNat) 0 hi).1, (sat ((a.toNat : Int) - b.toNat) 0 hi).2) =
      (if a.usubOverflow b then 0 else a - b, a.usubOverflow b) := by
  have hpow : ((2 ^ n : Nat) : Int) = 2 ^ n := by simp
  have ha := a.isLt
  rw [sat_eq (by omega), hhi]
  by_cases hov : a.toNat < b.toNat
  · have hmax : max 0 (min (2 ^ n - 1) ((a.toNat : Int) - b.toNat)) = 0 := by omega
    simp [BitVec.usubOverflow, hov, hmax]
  · have hmax : max 0 (min (2 ^ n - 1) ((a.toNat : Int) - b.toNat)) = (a.toNat : Int) - b.toNat := by omega
    have hlt : ¬ (2 : Int) ^ n - 1 < a.toNat - b.toNat := by omega
    simp [BitVec.usubOverflow, hov, hlt, hmax, ofInt_sub]

end Sys2Proof.Machine
end

section
/-!
SUPPORT. How a compute row starts its operation: for each unit, a row whose function is `f` gives what `f` computes.
-/
namespace Sys2Proof.Machine
open Sys2Proof

/-- A row of ALU0 and ALU1 gives what its function computes. -/
theorem aluGives_of_row {c : Hid → Fin 2 → Word → Instr} {f : Word → Word → Word × Bool} {r : Word → Word → Word}
    {v : Word → Word → Bool} (hc : ∀ s h u t, exec (c h u t) s = s.aluRow h u f t) (hf : ∀ t o, f t o = (r t o, v t o)) :
    AluGives c r v := by
  intro s h u t
  have hopnd : 0x28 + u.val = if u = 0 then 0x28 else 0x29 := by revert u; decide
  have hres : fin 15 u.val = if u = 0 then 0 else 1 := by revert u; decide
  rw [hc]
  simp only [State.aluRow, Hearth.alu, hf, hopnd, hres]
  rfl

/-- A row of SHF gives what its function computes. -/
theorem shfGives_of_row {c : Hid → Word → Instr} {f : Word → Word → Word × Bool} {r : Word → Word → Word}
    {v : Word → Word → Bool} (hc : ∀ s h t, exec (c h t) s = s.shfRow h f t) (hf : ∀ t o, f t o = (r t o, v t o)) :
    ShfGives c r v := by
  intro s h t
  rw [hc]
  simp only [State.shfRow, Hearth.shf, hf]
  rfl

/-- A row of PRED gives what its comparison answers. -/
theorem prdGives_of_row {c : Hid → Word → Instr} {f r : Word → Word → Bool}
    (hc : ∀ s h t, exec (c h t) s = s.prdRow h f t) (hf : ∀ t o, f t o = r t o) : PrdGives c r := by
  intro s h t
  rw [hc]
  simp only [State.prdRow, Hearth.prd, hf]
  rfl

/-- With an entry of the tracking table free, a tracked row takes its effect. -/
theorem State.tracked_of_room {s : State} {h : Hid} (hroom : (s.hearth h).ottUsed < 48) (f : State → State) :
    s.tracked h f = .next (f s) :=
  if_neg (Nat.not_le.mpr hroom)

/-- A row of the plain products gives what its function computes. -/
theorem mulGives_of_row {c : Hid → Word → Instr} {f : Word → Word → Word × Word × Bool} {r k : Word → Word → Word}
    {v : Word → Word → Bool} (hc : ∀ s h t, exec (c h t) s = s.mulRow h f t) (hf : ∀ t o, f t o = (r t o, k t o, v t o)) :
    MulGives c r k v := by
  intro s h t hroom
  rw [hc, State.mulRow, State.tracked_of_room hroom]
  simp only [Hearth.mulp, hf]
  rfl

/-- A row of the accumulator operations starts its operation. -/
theorem accGives_of_row {c : Hid → Word → Instr} {op : AccOp} (hc : ∀ s h t, exec (c h t) s = s.accRow h op t) :
    AccGives c op := by
  intro s h t hroom
  rw [hc, State.accRow, State.tracked_of_room hroom]
  rfl

/-- An idle divider holds no trigger (R128). -/
theorem Hearth.divWait_eq_zero {x : Hearth} (hidle : ∀ f ∈ x.flights, f.unit = .div → f.due ≤ x.ic) : x.divWait = 0 := by
  have hfold : ∀ l : List Flight, (∀ f ∈ l, f.due ≤ x.ic) → l.foldl (fun n f => max n (f.due - x.ic)) 0 = 0 := by
    intro l
    induction l with
    | nil => intro _; rfl
    | cons f l ih =>
      intro hl
      have hf : max 0 (f.due - x.ic) = 0 := by
        have := hl f List.mem_cons_self
        omega
      rw [List.foldl_cons, hf]
      exact ih fun g hg => hl g (List.mem_cons_of_mem f hg)
  apply hfold
  intro f hf
  obtain ⟨hmem, hunit⟩ := List.mem_filter.mp hf
  exact hidle f hmem (by simpa using hunit)

/-- A row of DIV gives what its function computes, and faults on O = 0 where HCTL.DZF is set (R127, R129). -/
theorem divGives_of_row {c : Hid → Word → Instr} {f : Word → Word → Word × Word × Bool × Bool} {q r : Word → Word → Word}
    {dov dvz : Word → Word → Bool} (hc : ∀ s h t, exec (c h t) s = s.divRow h f t)
    (hf : ∀ t o, f t o = (q t o, r t o, dov t o, dvz t o)) : DivGives c q r dov dvz := by
  intro s h t hroom hidle
  have hfire : exec (c h t) s = .next (s.divFire h f t) := by
    rw [hc, State.divRow, Hearth.divWait_eq_zero hidle]
    exact State.tracked_of_room hroom _
  refine ⟨fun hok => ?_, fun hdzf hzero => ?_⟩
  · have hgo : (tb ((s.hearth h).rd 0x008) 0 && (s.hearth h).opnd 0x2D == 0) = false := by
      rcases hok with hdzf | hne
      · rw [tb, hdzf, Bool.false_and]
      · rw [beq_false_of_ne hne, Bool.and_false]
    rw [hfire, State.divFire, State.modHearth_eq, hgo]
    simp only [Hearth.dvd, hf]
    rfl
  · rw [hfire, State.divFire, State.modHearth_eq]
    simp [tb, hdzf, hzero]

end Sys2Proof.Machine
end

section
/-!
The operations of ALU0 and ALU1 (04 Table OC-3, R114 to R116): what the function of each row computes, and the statement.
-/
namespace Sys2Proof.Machine
open Sys2Proof

/-! ## Whole words without a sticky bit -/

theorem aluAddcy_eq (t o : Word) : aluAddcy t o = (if BitVec.uaddOverflow t o then 1 else 0, false) := by
  simp [aluAddcy, plain, BitVec.uaddOverflow]

theorem aluSubbw_eq (t o : Word) : aluSubbw t o = (if BitVec.usubOverflow t o then 1 else 0, false) := by
  simp [aluSubbw, plain, BitVec.usubOverflow]

theorem aluMin_eq (t o : Word) : aluMin t o = (if t.sle o then t else o, false) := by
  simp [aluMin, plain, BitVec.sle]

/-- On equal operands either is the greater, so the comparison may be taken from either side. -/
theorem aluMax_eq (t o : Word) : aluMax t o = (if t.sle o then o else t, false) := by
  simp only [aluMax, plain, BitVec.sle, decide_eq_true_eq, Prod.mk.injEq, and_true]
  split_ifs with hot hto hto
  · exact BitVec.eq_of_toInt_eq (le_antisymm hto hot)
  · rfl
  · rfl
  · omega

theorem aluMinu_eq (t o : Word) : aluMinu t o = (if t.ule o then t else o, false) := by
  simp [aluMinu, plain, BitVec.ule]

theorem aluMaxu_eq (t o : Word) : aluMaxu t o = (if t.ule o then o else t, false) := by
  simp only [aluMaxu, plain, BitVec.ule, decide_eq_true_eq, Prod.mk.injEq, and_true]
  split_ifs with hot hto hto
  · exact BitVec.eq_of_toNat_eq (le_antisymm hto hot)
  · rfl
  · rfl
  · omega

/-! ## Whole words that saturate or set SOV -/

theorem aluAdds_eq (t o : Word) : aluAdds t o = (clampTo 32 (t.toInt + o.toInt), t.saddOverflow o) := by
  rw [aluAdds, satW_signed, outOf_add]

theorem aluSubs_eq (t o : Word) : aluSubs t o = (clampTo 32 (t.toInt - o.toInt), t.ssubOverflow o) := by
  rw [aluSubs, satW_signed, outOf_sub]

theorem aluAddus_eq (t o : Word) :
    aluAddus t o = (if BitVec.uaddOverflow t o then 0xFFFFFFFF else t + o, BitVec.uaddOverflow t o) :=
  sat_unsigned_add rfl t o

theorem aluSubus_eq (t o : Word) :
    aluSubus t o = (if BitVec.usubOverflow t o then 0 else t - o, BitVec.usubOverflow t o) :=
  sat_unsigned_sub rfl t o

/-- The negation of the least value alone leaves the signed field, and clamps to the greatest value (R115). -/
theorem satW_neg (t : Word) :
    satW (-t.toInt) (-2147483648) 2147483647 = (if t = BitVec.intMin 32 then 0x7FFFFFFF else -t, t == BitVec.intMin 32) := by
  rw [satW_signed]
  by_cases hmin : t = BitVec.intMin 32
  · subst hmin
    decide
  · have hne : t.toInt ≠ -2147483648 := fun h => hmin (BitVec.eq_of_toInt_eq h)
    have hlo := t.le_toInt
    have hhi := t.toInt_lt
    have hmid : max (-2 ^ (32 - 1)) (min (2 ^ (32 - 1) - 1) (-t.toInt)) = -t.toInt := by omega
    have hout : outOf 32 (-t.toInt) = false := by
      simp [outOf]
      omega
    rw [clampTo, hmid, hout, BitVec.ofInt_neg, BitVec.ofInt_toInt, if_neg hmin, beq_false_of_ne hmin]

theorem intMin_word : (0x80000000 : Word) = BitVec.intMin 32 := rfl

theorem aluNeg_eq (t o : Word) : aluNeg t o = (-t, t == BitVec.intMin 32) := by
  rw [aluNeg, intMin_word, zero_sub]

theorem aluNegs_eq (t o : Word) :
    aluNegs t o = (if t = BitVec.intMin 32 then 0x7FFFFFFF else -t, t == BitVec.intMin 32) :=
  satW_neg t

theorem aluAbs_eq (t o : Word) : aluAbs t o = (t.abs, t == BitVec.intMin 32) := by
  rw [aluAbs, intMin_word]
  simp [BitVec.abs_eq, BitVec.msb_eq_toInt]

theorem aluAbss_eq (t o : Word) :
    aluAbss t o = (if t = BitVec.intMin 32 then 0x7FFFFFFF else t.abs, t == BitVec.intMin 32) := by
  rw [aluAbss, satW_neg, BitVec.abs_eq, BitVec.msb_eq_toInt]
  by_cases hneg : t.toInt < 0
  · simp [hneg]
  · have hmin : t ≠ BitVec.intMin 32 := by
      rintro rfl
      exact hneg (by decide)
    simp [hneg, hmin, plain]

/-! ## Four bytes and two halves -/

theorem aluAddB4_eq (t o : Word) : aluAddB4 t o = (onBytes (fun a b => a + b) t o, never t o) :=
  lanes_four_eq (p := fun _ _ => false) fun i => by simp only [lane_eq_toNat, Nat.cast_add, BitVec.ofInt_add, ofInt_toNat]

theorem aluSubB4_eq (t o : Word) : aluSubB4 t o = (onBytes (fun a b => a - b) t o, never t o) :=
  lanes_four_eq (p := fun _ _ => false) fun i => by simp only [lane_eq_toNat, ofInt_sub, ofInt_toNat]

theorem aluAddusB4_eq (t o : Word) :
    aluAddusB4 t o = (onBytes (fun a b => if BitVec.uaddOverflow a b then 255 else a + b) t o, someByte BitVec.uaddOverflow t o) :=
  lanes_four_eq fun i => by
    simp only [lane_eq_toNat]
    exact sat_unsigned_add rfl _ _

theorem aluSubusB4_eq (t o : Word) :
    aluSubusB4 t o = (onBytes (fun a b => if BitVec.usubOverflow a b then 0 else a - b) t o, someByte BitVec.usubOverflow t o) :=
  lanes_four_eq fun i => by
    simp only [lane_eq_toNat]
    exact sat_unsigned_sub rfl _ _

theorem aluAddH2_eq (t o : Word) : aluAddH2 t o = (onHalves (fun a b => a + b) t o, never t o) :=
  lanes_two_eq (p := fun _ _ => false) fun i => by simp only [lane_eq_toNat, Nat.cast_add, BitVec.ofInt_add, ofInt_toNat]

theorem aluSubH2_eq (t o : Word) : aluSubH2 t o = (onHalves (fun a b => a - b) t o, never t o) :=
  lanes_two_eq (p := fun _ _ => false) fun i => by simp only [lane_eq_toNat, ofInt_sub, ofInt_toNat]

theorem aluAddsH2_eq (t o : Word) :
    aluAddsH2 t o = (onHalves (fun a b => clampTo 16 (a.toInt + b.toInt)) t o, someHalf BitVec.saddOverflow t o) :=
  lanes_two_eq fun i => by rw [slane_eq_toInt, slane_eq_toInt, ← outOf_add]; exact sat_signed rfl rfl _

theorem aluSubsH2_eq (t o : Word) :
    aluSubsH2 t o = (onHalves (fun a b => clampTo 16 (a.toInt - b.toInt)) t o, someHalf BitVec.ssubOverflow t o) :=
  lanes_two_eq fun i => by rw [slane_eq_toInt, slane_eq_toInt, ← outOf_sub]; exact sat_signed rfl rfl _

/-! ## The statement -/

/-- The operations without a lemma above compute the bit-vector operation of their row by definition. -/
theorem aluWordOperationsGiveTheirResults : AluWordOperationsGiveTheirResults :=
  ⟨aluGives_of_row (fun _ _ _ _ => rfl) fun _ _ => rfl, aluGives_of_row (fun _ _ _ _ => rfl) fun _ _ => rfl,
   aluGives_of_row (fun _ _ _ _ => rfl) fun _ _ => rfl, aluGives_of_row (fun _ _ _ _ => rfl) aluAddcy_eq,
   aluGives_of_row (fun _ _ _ _ => rfl) aluSubbw_eq, aluGives_of_row (fun _ _ _ _ => rfl) fun _ _ => rfl,
   aluGives_of_row (fun _ _ _ _ => rfl) fun _ _ => rfl, aluGives_of_row (fun _ _ _ _ => rfl) fun _ _ => rfl,
   aluGives_of_row (fun _ _ _ _ => rfl) fun _ _ => rfl, aluGives_of_row (fun _ _ _ _ => rfl) fun _ _ => rfl,
   aluGives_of_row (fun _ _ _ _ => rfl) fun _ _ => rfl, aluGives_of_row (fun _ _ _ _ => rfl) aluMin_eq,
   aluGives_of_row (fun _ _ _ _ => rfl) aluMax_eq, aluGives_of_row (fun _ _ _ _ => rfl) aluMinu_eq,
   aluGives_of_row (fun _ _ _ _ => rfl) aluMaxu_eq⟩

theorem aluSaturatingOperationsClampAndSetSov : AluSaturatingOperationsClampAndSetSov :=
  ⟨aluGives_of_row (fun _ _ _ _ => rfl) aluAdds_eq, aluGives_of_row (fun _ _ _ _ => rfl) aluSubs_eq,
   aluGives_of_row (fun _ _ _ _ => rfl) aluAddus_eq, aluGives_of_row (fun _ _ _ _ => rfl) aluSubus_eq,
   aluGives_of_row (fun _ _ _ _ => rfl) aluNeg_eq, aluGives_of_row (fun _ _ _ _ => rfl) aluNegs_eq,
   aluGives_of_row (fun _ _ _ _ => rfl) aluAbs_eq, aluGives_of_row (fun _ _ _ _ => rfl) aluAbss_eq⟩

theorem aluLaneOperationsActOnEachLane : AluLaneOperationsActOnEachLane :=
  ⟨aluGives_of_row (fun _ _ _ _ => rfl) aluAddB4_eq, aluGives_of_row (fun _ _ _ _ => rfl) aluSubB4_eq,
   aluGives_of_row (fun _ _ _ _ => rfl) aluAddusB4_eq, aluGives_of_row (fun _ _ _ _ => rfl) aluSubusB4_eq,
   aluGives_of_row (fun _ _ _ _ => rfl) aluAddH2_eq, aluGives_of_row (fun _ _ _ _ => rfl) aluSubH2_eq,
   aluGives_of_row (fun _ _ _ _ => rfl) aluAddsH2_eq, aluGives_of_row (fun _ _ _ _ => rfl) aluSubsH2_eq⟩

/-- Settles O1, row by row. -/
theorem aluOperationsGiveTheirResults : Obligations.AluOperationsGiveTheirResults :=
  ⟨aluWordOperationsGiveTheirResults, aluSaturatingOperationsClampAndSetSov, aluLaneOperationsActOnEachLane⟩

end Sys2Proof.Machine
end

section
/-!
The plain products of MUL (04 Table OC-5, R122, R124): what the function of each row computes, and the statement.
-/
namespace Sys2Proof.Machine
open Sys2Proof

/-- The two words of an exact product are the halves of its 64-bit form. -/
theorem halves_eq {p : Int} {b : BitVec 64} (hp : b = BitVec.ofInt 64 p) :
    halves p = (b.setWidth 32, b.extractLsb' 32 32, false) := by
  rw [hp, setWidth_ofInt (by omega), extractLsb'_ofInt 32 32]
  rfl

theorem setWidth_eq_ofInt (x : Word) : x.setWidth 64 = BitVec.ofInt 64 (x.toNat : Int) := by
  rw [BitVec.ofInt_natCast, BitVec.ofNat_toNat]

theorem mulMul_eq (t o : Word) :
    mulMul t o = ((t.signExtend 64 * o.signExtend 64).setWidth 32, (t.signExtend 64 * o.signExtend 64).extractLsb' 32 32, false) :=
  halves_eq (BitVec.ofInt_mul _ _).symm

theorem mulMulu_eq (t o : Word) :
    mulMulu t o = ((t.setWidth 64 * o.setWidth 64).setWidth 32, (t.setWidth 64 * o.setWidth 64).extractLsb' 32 32, false) :=
  halves_eq (by rw [setWidth_eq_ofInt, setWidth_eq_ofInt, BitVec.ofInt_mul])

theorem mulMulsu_eq (t o : Word) :
    mulMulsu t o = ((t.signExtend 64 * o.setWidth 64).setWidth 32, (t.signExtend 64 * o.setWidth 64).extractLsb' 32 32, false) :=
  halves_eq (by rw [setWidth_eq_ofInt, BitVec.signExtend, BitVec.ofInt_mul])

theorem mulMulH2_eq (t o : Word) :
    mulMulH2 t o = (onHalves (fun a b => a * b) t o,
      onHalves (fun a b => (a.signExtend 32 * b.signExtend 32).extractLsb' 16 16) t o, false) := by
  have hlow := lanes_two_eq (f := fun i => (slane t i 16 * slane o i 16, false)) (g := fun a b => a * b)
    (p := fun _ _ => false) (t := t) (o := o) fun i => by
      simp only [slane_eq_toInt, BitVec.ofInt_mul, BitVec.ofInt_toInt]
  have hhigh := lanes_two_eq (f := fun i => (floorShr (slane t i 16 * slane o i 16) 16, false))
    (g := fun a b => (a.signExtend 32 * b.signExtend 32).extractLsb' 16 16) (p := fun _ _ => false) (t := t) (o := o) fun i => by
      rw [BitVec.signExtend, BitVec.signExtend, ← BitVec.ofInt_mul, extractLsb'_ofInt 16 16, slane_eq_toInt, slane_eq_toInt]
      rfl
  rw [mulMulH2, hlow, hhigh]

/-! ## Rounded products (R124) -/

/-- A product of two integers of a signed field with `h` a quarter of its size, rounded back to the field, leaves it
only upward and only from the two least values. -/
theorem rounded_product_range {h a b : Int} (hh : 0 < h) (ha : -(2 * h) ≤ a ∧ a < 2 * h) (hb : -(2 * h) ≤ b ∧ b < 2 * h) :
    -(2 * h) ≤ (a * b + h) / (2 * h) ∧ (2 * h ≤ (a * b + h) / (2 * h) ↔ a = -(2 * h) ∧ b = -(2 * h)) := by
  have haabs : |a| ≤ 2 * h := abs_le.mpr ⟨ha.1, ha.2.le⟩
  have hbabs : |b| ≤ 2 * h := abs_le.mpr ⟨hb.1, hb.2.le⟩
  rw [Int.le_ediv_iff_mul_le (by omega), Int.le_ediv_iff_mul_le (by omega)]
  refine ⟨?_, fun hbig => ?_, ?_⟩
  · have hprod : |a * b| ≤ 2 * h * (2 * h) := by
      rw [abs_mul]
      exact mul_le_mul haabs hbabs (abs_nonneg b) (by omega)
    have := (abs_le.mp hprod).1
    linarith
  · have hsmall : ∀ x y : Int, -(2 * h) < x → x < 2 * h → |y| ≤ 2 * h → x * y ≤ (2 * h - 1) * (2 * h) := by
      intro x y hlo hhi hy
      have hx : |x| ≤ 2 * h - 1 := abs_le.mpr ⟨by omega, by omega⟩
      calc x * y ≤ |x| * |y| := by rw [← abs_mul]; exact le_abs_self _
        _ ≤ (2 * h - 1) * (2 * h) := mul_le_mul hx hy (abs_nonneg y) (by omega)
    constructor <;> by_contra hne
    · have := hsmall a b (by omega) ha.2 hbabs
      linarith
    · have := hsmall b a (by omega) hb.2 haabs
      linarith
  · rintro ⟨rfl, rfl⟩
    linarith

theorem toInt_eq_least_iff {n : Nat} (hn : 0 < n) (a : BitVec n) : a.toInt = -2 ^ (n - 1) ↔ a = BitVec.intMin n := by
  rw [← BitVec.toInt_inj, BitVec.toInt_intMin_of_pos hn]

theorem outOf_rounded_product {n : Nat} (a b : BitVec (n + 2)) :
    outOf (n + 2) ((a.toInt * b.toInt + 2 ^ n) / 2 ^ (n + 1)) = (a == BitVec.intMin (n + 2) && b == BitVec.intMin (n + 2)) := by
  have hpow : (2 : Int) ^ (n + 1) = 2 * 2 ^ n := by ring
  have ha : -2 ^ (n + 1) ≤ a.toInt ∧ a.toInt < 2 ^ (n + 1) := ⟨a.le_toInt, a.toInt_lt⟩
  have hb : -2 ^ (n + 1) ≤ b.toInt ∧ b.toInt < 2 ^ (n + 1) := ⟨b.le_toInt, b.toInt_lt⟩
  have hleast := fun x : BitVec (n + 2) => toInt_eq_least_iff (by omega) x
  simp only [Nat.add_succ_sub_one, hpow] at ha hb hleast
  obtain ⟨hlow, hhigh⟩ := rounded_product_range (by positivity) ha hb
  rw [hleast, hleast] at hhigh
  rw [outOf, Nat.add_succ_sub_one, hpow, decide_eq_false (by omega), Bool.false_or, Bool.eq_iff_iff]
  simp only [decide_eq_true_eq, Int.sub_one_lt_iff, hhigh, Bool.and_eq_true, beq_iff_eq]

theorem mulMulqH2_eq (t o : Word) :
    mulMulqH2 t o = (onHalves (fun a b => clampTo 16 ((a.toInt * b.toInt + 2 ^ 14) / 2 ^ 15)) t o, 0,
      someHalf (fun a b => a == BitVec.intMin 16 && b == BitVec.intMin 16) t o) := by
  have hlanes : lanes 2 16 (fun i => sat (roundShr (slane t i 16 * slane o i 16) 15) (-32768) 32767) =
      (onHalves (fun a b => clampTo 16 ((a.toInt * b.toInt + 2 ^ 14) / 2 ^ 15)) t o,
        someHalf (fun a b => a == BitVec.intMin 16 && b == BitVec.intMin 16) t o) :=
    lanes_two_eq fun i => by
      rw [slane_eq_toInt, slane_eq_toInt, ← outOf_rounded_product]
      exact sat_signed rfl rfl _
  rw [mulMulqH2, hlanes]

theorem mulMulq_eq (t o : Word) :
    mulMulq t o = (clampTo 32 ((t.toInt * o.toInt + 2 ^ 30) / 2 ^ 31), 0,
      t == BitVec.intMin 32 && o == BitVec.intMin 32) := by
  rw [mulMulq, satW_signed, ← outOf_rounded_product]
  rfl

/-- Settles O2, product by product. -/
theorem multiplierProductsAreExact : Obligations.MultiplierProductsAreExact :=
  ⟨mulGives_of_row (fun _ _ _ => rfl) mulMul_eq, mulGives_of_row (fun _ _ _ => rfl) mulMulu_eq,
   mulGives_of_row (fun _ _ _ => rfl) mulMulsu_eq, mulGives_of_row (fun _ _ _ => rfl) mulMulH2_eq,
   mulGives_of_row (fun _ _ _ => rfl) mulMulqH2_eq, mulGives_of_row (fun _ _ _ => rfl) mulMulq_eq⟩

end Sys2Proof.Machine
end

section
/-!
The accumulator operations of MUL (04 Table OC-5, R120, R122, R123): their final stage, and the statement.
-/
namespace Sys2Proof.Machine
open Sys2Proof

/-- What the final stage of an accumulator operation leaves in ACC, MUL.r, MUL.h and SOV. -/
theorem Hearth.land_acc (x : Hearth) {f : Flight} {op : AccOp} {t o : Word} (hf : f.kind = .acc op t o) :
    (x.land f).acc = (accFinal op x.acc t o).2.2.1 ∧ (x.land f).rs[3] = (accFinal op x.acc t o).1
      ∧ (x.land f).rs[4] = (accFinal op x.acc t o).2.1 ∧ (x.land f).sov = (x.sov || (accFinal op x.acc t o).2.2.2) := by
  simp only [Hearth.land, hf, Hearth.stick]
  simp

theorem slane_zero (x : Word) : slane x 0 16 = (x.setWidth 16).toInt := by
  rw [slane_eq_toInt, zero_mul, ← BitVec.setWidth_eq_extractLsb' (by omega)]

theorem lane_zero (x : Word) : lane x 0 16 = (x.setWidth 16).toNat := by
  rw [lane_eq_toNat, zero_mul, ← BitVec.setWidth_eq_extractLsb' (by omega)]

theorem slane_one (x : Word) : slane x 1 16 = (x.extractLsb' 16 16).toInt :=
  slane_eq_toInt x 1 16

theorem accSum_eq (op : AccOp) (a : Int) (t o : Word) : accSum op a t o = exactSum op a t o := by
  cases op <;> simp only [accSum, exactSum, slane_zero, slane_one, lane_zero, Nat.cast_mul]

/-- The final stage of an accumulating operation: the sum clamped to 48 bits, read out whole (R123). -/
theorem accFinal_of_accumulating {op : AccOp} (hr : op ≠ .accr) (hh : op ≠ .accrH) (acc : BitVec 48) (t o : Word) :
    accFinal op acc t o =
      ((clampTo 48 (exactSum op acc.toInt t o)).setWidth 32,
        ((clampTo 48 (exactSum op acc.toInt t o)).extractLsb' 32 16).signExtend 32,
        clampTo 48 (exactSum op acc.toInt t o), outOf 48 (exactSum op acc.toInt t o)) := by
  have hsat := sat_signed (n := 48) (lo := -140737488355328) (hi := 140737488355327) rfl rfl (exactSum op acc.toInt t o)
  obtain ⟨hval, hsov⟩ := Prod.mk.inj hsat
  have hfinal : accFinal op acc t o =
      (let r := sat (accSum op acc.toInt t o) (-140737488355328) 140737488355327
       let a : BitVec 48 := BitVec.ofInt 48 r.1
       (wOfInt r.1, sext16 (a.toNat / 2 ^ 32), a, r.2)) := by
    cases op with
    | mac | msu | macH2 | msuH2 | macu => rfl
    | accr => exact absurd rfl hr
    | accrH => exact absurd rfl hh
  rw [hfinal, accSum_eq]
  simp only [wOfInt, ← setWidth_ofInt (show 32 ≤ 48 by omega), sext16_div_two_pow, hval, hsov]

/-- A word made of a value clamped to a signed field is the field's sign extension. -/
theorem wOfInt_sat_signed {n : Nat} (hn : 0 < n) {lo hi : Int} (hlo : lo = -2 ^ (n - 1)) (hhi : hi = 2 ^ (n - 1) - 1) (x : Int) :
    wOfInt (sat x lo hi).1 = (clampTo n x).signExtend 32 ∧ (sat x lo hi).2 = outOf n x := by
  have hpos : (0 : Int) < 2 ^ (n - 1) := by positivity
  rw [BitVec.signExtend, toInt_clampTo hn, sat_eq (by omega), hlo, hhi]
  exact ⟨rfl, rfl⟩

/-- The final stage of an accumulator read of `w` bits: ACC shifted right with rounding, clamped; ACC stays. -/
theorem accFinal_of_read {op : AccOp} {w : Nat} (hop : op = .accr ∧ w = 32 ∨ op = .accrH ∧ w = 16) (acc : BitVec 48) (t o : Word) :
    accFinal op acc t o =
      ((clampTo w (roundShr acc.toInt (t.toNat % 64))).signExtend 32, (acc.extractLsb' 32 16).signExtend 32, acc,
        outOf w (roundShr acc.toInt (t.toNat % 64))) := by
  have hshift : roundShr acc.toInt (fld t 0 6) = roundShr acc.toInt (t.toNat % 64) := by
    rw [fld_zero]
    rfl
  obtain ⟨rfl, rfl⟩ | ⟨rfl, rfl⟩ := hop
  · obtain ⟨hval, hsov⟩ := wOfInt_sat_signed (n := 32) (lo := -2147483648) (hi := 2147483647) (by omega) rfl rfl
      (roundShr acc.toInt (t.toNat % 64))
    rw [accFinal, hshift, sext16_div_two_pow, hval, hsov]
  · obtain ⟨hval, hsov⟩ := wOfInt_sat_signed (n := 16) (lo := -32768) (hi := 32767) (by omega) rfl rfl
      (roundShr acc.toInt (t.toNat % 64))
    rw [accFinal, hshift, sext16_div_two_pow, hval, hsov]

/-- Settles O3: the rows start their operations, and the final stage is `accFinal`. -/
theorem accumulatorOperationsUpdateAccInTheirFinalStage : Obligations.AccumulatorOperationsUpdateAccInTheirFinalStage := by
  refine ⟨accGives_of_row fun _ _ _ => rfl, accGives_of_row fun _ _ _ => rfl, accGives_of_row fun _ _ _ => rfl,
    accGives_of_row fun _ _ _ => rfl, accGives_of_row fun _ _ _ => rfl, accGives_of_row fun _ _ _ => rfl,
    accGives_of_row fun _ _ _ => rfl, ?_, ?_⟩
  · intro x f op t o hf hr hh
    obtain ⟨hacc, hlow, hhigh, hsov⟩ := x.land_acc hf
    rw [accFinal_of_accumulating hr hh] at hacc hlow hhigh hsov
    exact ⟨hacc, by rw [hlow, hacc], by rw [hhigh, hacc], hsov⟩
  · intro x f op t o w hf hop
    obtain ⟨hacc, hlow, hhigh, hsov⟩ := x.land_acc hf
    rw [accFinal_of_read hop] at hacc hlow hhigh hsov
    exact ⟨hacc, hhigh, hlow, hsov⟩

end Sys2Proof.Machine
end

section
/-!
The divisions (04 Table OC-6, R126, R127, R129): what the function of each row computes, and the statement.
-/
namespace Sys2Proof.Machine
open Sys2Proof

/-- A signed division away from its two corners is given by its quotient and remainder. -/
theorem divBy_signed {f : Word → Word → Word × Word} {q r : Word → Word → Word} (hf : ∀ t o, f t o = (q t o, r t o))
    (t o : Word) :
    divBy true f t o =
      (if o = 0 then 0xFFFFFFFF else if divOvf t o then 0x80000000 else q t o,
        if o = 0 then t else if divOvf t o then 0 else r t o, divOvf t o, o == 0) := by
  have hcorner : (true && t == 0x80000000 && o == 0xFFFFFFFF) = divOvf t o := rfl
  rw [divBy, hcorner]
  by_cases hzero : o = 0
  · subst hzero
    simp [divOvf]
  · simp only [if_neg hzero, beq_false_of_ne hzero, hf]
    cases divOvf t o with
    | true => rfl
    | false => rfl

theorem divBy_unsigned {f : Word → Word → Word × Word} {q r : Word → Word → Word} (hf : ∀ t o, f t o = (q t o, r t o))
    (t o : Word) :
    divBy false f t o = (if o = 0 then 0xFFFFFFFF else q t o, if o = 0 then t else r t o, never t o, o == 0) := by
  rw [divBy]
  by_cases hzero : o = 0
  · subst hzero
    rfl
  · simp only [if_neg hzero, beq_false_of_ne hzero, hf]
    rfl

theorem divDiv_eq (t o : Word) :
    divDiv t o =
      (if o = 0 then 0xFFFFFFFF else if divOvf t o then 0x80000000 else t.sdiv o,
        if o = 0 then t else if divOvf t o then 0 else t.srem o, divOvf t o, o == 0) :=
  divBy_signed (q := BitVec.sdiv) (r := BitVec.srem) (fun t o => by
    have hquo : wOfInt (Int.tdiv t.toInt o.toInt) = t.sdiv o :=
      BitVec.eq_of_toInt_eq (by rw [wOfInt, BitVec.toInt_ofInt, BitVec.toInt_sdiv])
    have hrem : wOfInt (t.toInt - Int.tdiv t.toInt o.toInt * o.toInt) = t.srem o := by
      rw [mul_comm, ← Int.tmod_def, ← BitVec.toInt_srem, wOfInt, BitVec.ofInt_toInt]
    rw [hquo, hrem]) t o

theorem divRem_eq (t o : Word) :
    divRem t o =
      (if o = 0 then 0xFFFFFFFF else if divOvf t o then 0x80000000 else BitVec.ofInt 32 (Int.fdiv t.toInt o.toInt),
        if o = 0 then t else if divOvf t o then 0 else t.smod o, divOvf t o, o == 0) :=
  divBy_signed (q := fun t o => BitVec.ofInt 32 (Int.fdiv t.toInt o.toInt)) (r := BitVec.smod) (fun t o => by
    have hrem : wOfInt (t.toInt - Int.fdiv t.toInt o.toInt * o.toInt) = t.smod o := by
      rw [mul_comm, ← Int.fmod_def, ← BitVec.toInt_smod, wOfInt, BitVec.ofInt_toInt]
    rw [hrem, wOfInt]) t o

theorem divDivu_eq (t o : Word) :
    divDivu t o = (if o = 0 then 0xFFFFFFFF else t / o, if o = 0 then t else t % o, never t o, o == 0) :=
  divBy_unsigned (q := fun t o => t / o) (r := fun t o => t % o) (fun t o => by
    rw [← BitVec.toNat_udiv, ← BitVec.toNat_umod, w32, w32, BitVec.ofNat_toNat, BitVec.ofNat_toNat, BitVec.setWidth_eq,
      BitVec.setWidth_eq]) t o

/-- Settles O4, division by division. -/
theorem divisionsAndTheirCorners : Obligations.DivisionsAndTheirCorners :=
  ⟨divGives_of_row (fun _ _ _ => rfl) divDiv_eq, divGives_of_row (fun _ _ _ => rfl) divRem_eq,
   divGives_of_row (fun _ _ _ => rfl) divDivu_eq, divGives_of_row (fun _ _ _ => rfl) divDivu_eq⟩

end Sys2Proof.Machine
end

section
/-!
The operations of SHF and PRED (04 Tables OC-4 and OC-7, R117, R118, R130): what the function of each row computes, and the
statement.
-/
namespace Sys2Proof.Machine
open Sys2Proof

/-! ## Shifts and rotations of words -/

theorem shfShl_eq (t o : Word) : shfShl t o = (t <<< (o.toNat % 64), false) := by
  rw [shfShl, fld_zero, w32, ofNat_toNat_mul_two_pow]
  rfl

theorem shfShr_eq (t o : Word) : shfShr t o = (t >>> (o.toNat % 64), false) := by
  rw [shfShr, fld_zero, w32, ofNat_toNat_div_two_pow]
  rfl

theorem shfSar_eq (t o : Word) : shfSar t o = (t.sshiftRight (o.toNat % 64), false) := by
  rw [shfSar, fld_zero, wOfInt, ofInt_floorShr_toInt]
  rfl

theorem shfRol_eq (t o : Word) : shfRol t o = (t.rotateLeft (o.toNat % 32), false) := by
  have hcount : o.toNat % 2 ^ 5 = o.toNat % 32 % 32 := by omega
  rw [shfRol, fld_zero, w32, w32, ofNat_toNat_mul_two_pow, ofNat_toNat_div_two_pow, hcount]
  rfl

theorem shfRor_eq (t o : Word) : shfRor t o = (t.rotateRight (o.toNat % 32), false) := by
  have hcount : o.toNat % 2 ^ 5 = o.toNat % 32 % 32 := by omega
  rw [shfRor, fld_zero, w32, w32, ofNat_toNat_mul_two_pow, ofNat_toNat_div_two_pow, hcount]
  rfl

theorem shfShls_eq (t o : Word) :
    shfShls t o = (clampTo 32 (t.toInt * 2 ^ (o.toNat % 64)), outOf 32 (t.toInt * 2 ^ (o.toNat % 64))) := by
  rw [shfShls, fld_zero, satW_signed]
  rfl

theorem shfSarr_eq (t o : Word) :
    shfSarr t o =
      (if o.toNat % 64 = 0 then t else BitVec.ofInt 32 ((t.toInt + 2 ^ (o.toNat % 64 - 1)) / 2 ^ (o.toNat % 64)), false) := by
  rw [shfSarr, fld_zero, roundShr, apply_ite wOfInt, wOfInt, BitVec.ofInt_toInt]
  rfl

/-! ## Shifts of halves -/

theorem shfShlH2_eq (t o : Word) : shfShlH2 t o = (onHalves (fun a _ => a <<< (o.toNat % 32)) t o, never t o) :=
  lanes_two_eq (p := fun _ _ => false) fun i => by
    rw [lane_eq_toNat, fld_zero, BitVec.ofInt_natCast, ofNat_toNat_mul_two_pow]
    rfl

theorem shfShrH2_eq (t o : Word) : shfShrH2 t o = (onHalves (fun a _ => a >>> (o.toNat % 32)) t o, never t o) :=
  lanes_two_eq (p := fun _ _ => false) fun i => by
    rw [lane_eq_toNat, fld_zero, BitVec.ofInt_natCast, ofNat_toNat_div_two_pow]
    rfl

theorem shfSarH2_eq (t o : Word) : shfSarH2 t o = (onHalves (fun a _ => a.sshiftRight (o.toNat % 32)) t o, never t o) :=
  lanes_two_eq (p := fun _ _ => false) fun i => by
    rw [slane_eq_toInt, fld_zero, ofInt_floorShr_toInt]
    rfl

/-! ## Extensions, leading zeros and packing -/

theorem fld_zero_eq_toNat (w : Word) (n : Nat) : fld w 0 n = (w.setWidth n).toNat := by
  rw [fld_zero, BitVec.toNat_setWidth]

theorem shfSextB_eq (t o : Word) : shfSextB t o = ((t.setWidth 8).signExtend 32, false) := by
  rw [shfSextB, sext8_toNat, plain]

theorem shfSextH_eq (t o : Word) : shfSextH t o = ((t.setWidth 16).signExtend 32, false) := by
  have hsext := sext16_div_two_pow t 0
  rw [pow_zero, Nat.div_one, ← BitVec.setWidth_eq_extractLsb' (by omega)] at hsext
  rw [shfSextH, hsext, plain]

theorem shfZextB_eq (t o : Word) : shfZextB t o = ((t.setWidth 8).setWidth 32, false) := by
  rw [shfZextB, fld_zero_eq_toNat, w32, BitVec.ofNat_toNat, plain]

theorem shfZextH_eq (t o : Word) : shfZextH t o = ((t.setWidth 16).setWidth 32, false) := by
  rw [shfZextH, fld_zero_eq_toNat, w32, BitVec.ofNat_toNat, plain]

/-- The leading zeros of a nonzero number below 2^n are those above its highest set bit. -/
theorem clzN_eq (n : Nat) : ∀ x, x < 2 ^ n → clzN n x = if x = 0 then n else n - 1 - Nat.log2 x := by
  induction n with
  | zero =>
    intro x hx
    have hx0 : x = 0 := by omega
    simp [clzN, hx0]
  | succ n ih =>
    intro x hx
    by_cases htop : 2 ^ n ≤ x
    · have hx0 : x ≠ 0 := by have := Nat.two_pow_pos n; omega
      have hlog : Nat.log2 x = n := (Nat.log2_eq_iff hx0).mpr ⟨htop, hx⟩
      simp [clzN, htop, hx0, hlog]
    · rw [clzN, if_neg htop, ih x (by omega)]
      split_ifs with hx0
      · omega
      · have hlog : Nat.log2 x < n := (Nat.log2_lt hx0).mpr (by omega)
        omega

theorem shfClz_eq (t o : Word) : shfClz t o = (if t = 0 then 32 else BitVec.ofNat 32 (31 - Nat.log2 t.toNat), false) := by
  have hzero : t.toNat = 0 ↔ t = 0 := BitVec.toNat_inj (x := t) (y := 0)
  rw [shfClz, plain, clzN_eq 32 t.toNat t.isLt, w32, apply_ite (BitVec.ofNat 32)]
  simp only [hzero]
  rfl

theorem shfPack_eq (t o : Word) : shfPack t o = (t.setWidth 16 ++ o.setWidth 16, false) := by
  have hor : (t.setWidth 16).toNat * 2 ^ 16 + (o.setWidth 16).toNat = (t.setWidth 16 ++ o.setWidth 16).toNat := by
    rw [BitVec.toNat_append, ← Nat.shiftLeft_add_eq_or_of_lt (o.setWidth 16).isLt, Nat.shiftLeft_eq]
  rw [shfPack, fld_zero_eq_toNat, fld_zero_eq_toNat, hor, w32, BitVec.ofNat_toNat, plain]
  exact congrArg (·, false) (BitVec.setWidth_eq _)

/-! ## Comparisons -/

theorem prdBit_eq (t o : Word) : prdBit t o = t.getLsbD (o.toNat % 32) := by
  rw [prdBit, tb, fld_zero]
  rfl

/-! ## The statement -/

theorem shifterOperationsGiveTheirResults : ShifterOperationsGiveTheirResults :=
  ⟨shfGives_of_row (fun _ _ _ => rfl) shfShl_eq, shfGives_of_row (fun _ _ _ => rfl) shfShr_eq,
   shfGives_of_row (fun _ _ _ => rfl) shfSar_eq, shfGives_of_row (fun _ _ _ => rfl) shfRol_eq,
   shfGives_of_row (fun _ _ _ => rfl) shfRor_eq, shfGives_of_row (fun _ _ _ => rfl) shfShls_eq,
   shfGives_of_row (fun _ _ _ => rfl) shfSarr_eq, shfGives_of_row (fun _ _ _ => rfl) shfShlH2_eq,
   shfGives_of_row (fun _ _ _ => rfl) shfShrH2_eq, shfGives_of_row (fun _ _ _ => rfl) shfSarH2_eq,
   shfGives_of_row (fun _ _ _ => rfl) shfSextB_eq, shfGives_of_row (fun _ _ _ => rfl) shfSextH_eq,
   shfGives_of_row (fun _ _ _ => rfl) shfZextB_eq, shfGives_of_row (fun _ _ _ => rfl) shfZextH_eq,
   shfGives_of_row (fun _ _ _ => rfl) shfClz_eq, shfGives_of_row (fun _ _ _ => rfl) shfPack_eq⟩

/-- Every comparison but `bit` is the bit-vector comparison of its row by definition. -/
theorem comparisonsGiveOneOrZero : ComparisonsGiveOneOrZero :=
  ⟨prdGives_of_row (fun _ _ _ => rfl) fun _ _ => rfl, prdGives_of_row (fun _ _ _ => rfl) fun _ _ => rfl,
   prdGives_of_row (fun _ _ _ => rfl) fun _ _ => rfl, prdGives_of_row (fun _ _ _ => rfl) fun _ _ => rfl,
   prdGives_of_row (fun _ _ _ => rfl) fun _ _ => rfl, prdGives_of_row (fun _ _ _ => rfl) fun _ _ => rfl,
   prdGives_of_row (fun _ _ _ => rfl) fun _ _ => rfl, prdGives_of_row (fun _ _ _ => rfl) fun _ _ => rfl,
   prdGives_of_row (fun _ _ _ => rfl) fun _ _ => rfl, prdGives_of_row (fun _ _ _ => rfl) fun _ _ => rfl,
   prdGives_of_row (fun _ _ _ => rfl) fun _ _ => rfl, prdGives_of_row (fun _ _ _ => rfl) prdBit_eq⟩

/-- Settles O5, row by row. -/
theorem shifterAndComparisonsGiveTheirResults : Obligations.ShifterAndComparisonsGiveTheirResults :=
  ⟨shifterOperationsGiveTheirResults, comparisonsGiveOneOrZero⟩

end Sys2Proof.Machine
end

section
/-!
SUPPORT. A word in straight flow takes its issue cycle: what the completion of Machine/Control.lean and the end of the
cycle leave of its hearth, and the cycles a hearth without buffered stores spends waiting (03 R52, R96; 05 R153 to R155).
-/
namespace Sys2Proof.Machine
open Sys2Proof

/-! ## The end of an issue cycle, field by field -/

@[simp] theorem Hearth.endIssue_pc (x : Hearth) : x.endIssue.pc = x.pc := (congrArg Hearth.pc x.endIssue_spec :)
@[simp] theorem Hearth.endIssue_g (x : Hearth) : x.endIssue.g = x.g := (congrArg Hearth.g x.endIssue_spec :)
@[simp] theorem Hearth.endIssue_sp (x : Hearth) : x.endIssue.sp = x.sp := (congrArg Hearth.sp x.endIssue_spec :)
@[simp] theorem Hearth.endIssue_p (x : Hearth) : x.endIssue.p = x.p := (congrArg Hearth.p x.endIssue_spec :)
@[simp] theorem Hearth.endIssue_op (x : Hearth) : x.endIssue.op = x.op := (congrArg Hearth.op x.endIssue_spec :)
@[simp] theorem Hearth.endIssue_sb (x : Hearth) : x.endIssue.sb = x.sb ++ x.sbNew := (congrArg Hearth.sb x.endIssue_spec :)
@[simp] theorem Hearth.endIssue_ic (x : Hearth) : x.endIssue.ic = x.ic + 1 := (congrArg Hearth.ic x.endIssue_spec :)
@[simp] theorem Hearth.endIssue_clk (x : Hearth) : x.endIssue.clk = x.clk + 1 := (congrArg Hearth.clk x.endIssue_spec :)
@[simp] theorem Hearth.endIssue_waitc (x : Hearth) : x.endIssue.waitc = x.waitc := (congrArg Hearth.waitc x.endIssue_spec :)
@[simp] theorem Hearth.endIssue_pbrV (x : Hearth) : x.endIssue.pbrV = x.pbrV := (congrArg Hearth.pbrV x.endIssue_spec :)
@[simp] theorem Hearth.endIssue_lpe (x : Hearth) : x.endIssue.lpe = x.lpe := (congrArg Hearth.lpe x.endIssue_spec :)
@[simp] theorem Hearth.endIssue_lpa (x : Hearth) : x.endIssue.lpa = x.lpa := (congrArg Hearth.lpa x.endIssue_spec :)
@[simp] theorem Hearth.endIssue_repc (x : Hearth) : x.endIssue.repc = x.repc := (congrArg Hearth.repc x.endIssue_spec :)
@[simp] theorem Hearth.endIssue_wait (x : Hearth) : x.endIssue.wait = x.wait := (congrArg Hearth.wait x.endIssue_spec :)
@[simp] theorem Hearth.endIssue_report (x : Hearth) : x.endIssue.report = x.report := (congrArg Hearth.report x.endIssue_spec :)
@[simp] theorem Hearth.endIssue_cmtPend (x : Hearth) : x.endIssue.cmtPend = x.cmtPend :=
  (congrArg Hearth.cmtPend x.endIssue_spec :)
@[simp] theorem Hearth.endIssue_ful (x : Hearth) : x.endIssue.ful = x.ful := (congrArg Hearth.ful x.endIssue_spec :)

/-! ## The completion of a word in straight flow -/

theorem Hearth.Straight.endIssue {x : Hearth} (hx : x.Straight) : x.endIssue.Straight := by
  simpa [Hearth.Straight] using hx

theorem Hearth.Straight.toNat_pc_succ {x : Hearth} (hx : x.Straight) : (x.pc + 1).toNat = x.pc.toNat + 1 := by
  obtain ⟨-, -, hpc, -⟩ := hx
  exact BitVec.toNat_add_of_lt (y := 1) (by simpa using (by omega : x.pc.toNat + 1 < 32768))

/-- Writing 0 to a field that holds 0 leaves the word. -/
theorem putF_zero_of_fld {w : Word} {lo n : Nat} (h : fld w lo n = 0) : putF w lo n 0 = w := by
  simp [putF, h, w32]

/-- The hearth at the next word. -/
def Hearth.nextWord (x : Hearth) : Hearth := { x with rep := none, pc := x.pc + 1 }

/-- A word that ends no active body is followed by the next index, and no level changes (R96). -/
theorem Hearth.afterWord_straight (ft : Nat → IWord) {x : Hearth} (hx : x.Straight) :
    x.afterWord ft x.pc.toNat = (x, x.pc.toNat + 1, false) := by
  obtain ⟨-, -, -, hend0, hend1⟩ := hx
  have h0 : x.a0 ≠ 0 → x.pc.toNat ≠ x.e0 := fun ha => by have := hend0 ha; unfold Hearth.e0; omega
  have h1 : x.a1 ≠ 0 → x.pc.toNat ≠ x.e1 := fun ha => by have := hend1 ha; unfold Hearth.e1; omega
  by_cases ha1 : x.a1 = 0
  · simpa [Hearth.afterWord, ha1] using fun ha0 hpc => absurd hpc (h0 ha0)
  · simp [Hearth.afterWord, ha1, h1 ha1]

theorem Hearth.goTo_straight {x : Hearth} (hx : x.Straight) : x.goTo (x.pc.toNat + 1) = { x with pc := x.pc + 1 } := by
  obtain ⟨-, -, hpc, -⟩ := hx
  have hsucc : BitVec.ofNat 15 (x.pc.toNat + 1) = x.pc + 1 := by simp [BitVec.ofNat_add]
  rw [Hearth.goTo, if_neg (by omega), hsucc]

theorem Hearth.step1_straight (ft : Nat → IWord) {x : Hearth} (hx : x.Straight) :
    x.step1 ft x.pc.toNat = ({ x with pc := x.pc + 1 }, 0) := by
  have hgo := Hearth.goTo_straight hx
  have hafter := Hearth.afterWord_straight ft hx
  obtain ⟨hpbr, -⟩ := hx
  simp only [Hearth.step1, hafter, hpbr, Bool.false_eq_true, if_false, hgo]

/-- In straight flow the PC goes on to the next word, and no cycle is added for its supply. -/
theorem Hearth.complete_straight (ft : Nat → IWord) {x : Hearth} (hx : x.Straight) :
    x.complete ft .seq none = (x.nextWord, 0) := by
  obtain ⟨-, hrep, -⟩ := id hx
  have hremain : ¬ 1 < x.remain := by rw [Hearth.remain, hrep]; omega
  rw [Hearth.complete, if_neg hremain, putF_zero_of_fld hrep]
  exact Hearth.step1_straight ft (x := { x with rep := none }) hx

/-! ## The issue of a word in straight flow -/

/-- The hearth as its issue cycle starts: the masks that govern the boundary after it (07 R195). -/
def Hearth.masked (x : Hearth) : Hearth :=
  { x with mlDec := x.ml, gmlDec := BitVec.ofNat 3 (fld (x.rd 0x120) 0 3), mlHeld := false }

/-- The hearth after its issue cycle, at the next word. -/
def Hearth.advanced (x : Hearth) : Hearth := x.masked.endIssue.nextWord

theorem State.startIssue_eq (s : State) (h : Hid) : s.startIssue h = s.setHearth h (s.hearth h).masked := rfl

theorem State.extraCycles_zero (s : State) (h : Hid) : s.extraCycles h 0 = s := s.setHearth_self h

section
variable {s : State} {h : Hid} (hx : (s.hearth h).Straight) (hsb : (s.hearth h).sb = [])
include hx hsb

/-- A word in straight flow without a trigger takes one cycle, and the PC goes on. -/
theorem State.finishNow_straight : (s.startIssue h).finishNow h .seq none = s.setHearth h (s.hearth h).advanced := by
  have hm : (s.hearth h).masked.endIssue.Straight := Hearth.Straight.endIssue hx
  rw [State.startIssue_eq, State.finishNow, State.endCycle_nil _ _ (by rw [State.hearth_setHearth_self]; exact hsb),
    State.modHearth_eq, State.hearth_setHearth_self, State.hearth_setHearth_self, Hearth.complete_straight _ hm,
    State.setHearth_setHearth, State.setHearth_setHearth, Hearth.advanced]

theorem State.finish_straight : (s.startIssue h).finish h .seq = s.setHearth h (s.hearth h).advanced := by
  have hm : ((s.startIssue h).hearth h).Straight := by rw [State.startIssue_eq, State.hearth_setHearth_self]; exact hx
  rw [State.finish, Hearth.complete_straight _ hm, State.extraCycles_zero, State.finishNow_straight hx hsb]

end

@[simp] theorem Hearth.advanced_pc (x : Hearth) : x.advanced.pc = x.pc + 1 := (congrArg (· + 1) x.masked.endIssue_pc :)
@[simp] theorem Hearth.advanced_g (x : Hearth) : x.advanced.g = x.g := x.masked.endIssue_g
@[simp] theorem Hearth.advanced_sp (x : Hearth) : x.advanced.sp = x.sp := x.masked.endIssue_sp
@[simp] theorem Hearth.advanced_p (x : Hearth) : x.advanced.p = x.p := x.masked.endIssue_p
@[simp] theorem Hearth.advanced_op (x : Hearth) : x.advanced.op = x.op := x.masked.endIssue_op
@[simp] theorem Hearth.advanced_sb (x : Hearth) : x.advanced.sb = x.sb ++ x.sbNew := x.masked.endIssue_sb
@[simp] theorem Hearth.advanced_ic (x : Hearth) : x.advanced.ic = x.ic + 1 := x.masked.endIssue_ic
@[simp] theorem Hearth.advanced_clk (x : Hearth) : x.advanced.clk = x.clk + 1 := x.masked.endIssue_clk
@[simp] theorem Hearth.advanced_waitc (x : Hearth) : x.advanced.waitc = x.waitc := x.masked.endIssue_waitc
@[simp] theorem Hearth.advanced_wait (x : Hearth) : x.advanced.wait = x.wait := x.masked.endIssue_wait
@[simp] theorem Hearth.advanced_report (x : Hearth) : x.advanced.report = x.report := x.masked.endIssue_report
@[simp] theorem Hearth.advanced_cmtPend (x : Hearth) : x.advanced.cmtPend = x.cmtPend := x.masked.endIssue_cmtPend
@[simp] theorem Hearth.advanced_ful (x : Hearth) : x.advanced.ful = x.ful := x.masked.endIssue_ful

/-- A word in straight flow has issued when its hearth alone changes, and that as the issue cycle and `n` more cycles do. -/
theorem State.issued_setHearth {s : State} {h : Hid} {y : Hearth} {n : Nat} (hx : (s.hearth h).Straight)
    (hclk : y.clk = (s.hearth h).clk + 1 + n) (hpc : y.pc = (s.hearth h).pc + 1 := by simp)
    (hic : y.ic = (s.hearth h).ic + 1 := by simp) (hg : y.g = (s.hearth h).g := by simp)
    (hp : y.p = (s.hearth h).p := by simp) (hop : y.op = (s.hearth h).op := by simp)
    (hsp : y.sp = (s.hearth h).sp := by simp) :
    s.Issued (s.setHearth h y) h ((s.hearth h).pc.toNat + 1) n := by
  rw [State.Issued, State.hearth_setHearth_self, hpc, hx.toNat_pc_succ]
  exact ⟨rfl, hic, hclk, hg, hp, hop, fun _ _ => ⟨rfl, hsp⟩⟩

end Sys2Proof.Machine
end

section
/-!
SUPPORT. What the parts of a system word beyond its issue leave of the hearth: the cycles it waits or stalls, the stop of
the fulling unit, the retiring of patched lines, and the target that EPWAIT latches (05 R154, R155; 06 R169, R181; 08 R248).
-/
namespace Sys2Proof.Machine
open Sys2Proof

/-! ## Cycles without an issue, with no buffered store -/

theorem State.stallCycle_nil {s : State} {h : Hid} (hsb : (s.hearth h).sb = []) :
    s.stallCycle h false =
      s.setHearth h { s.hearth h with clk := (s.hearth h).clk + 1, stallc := (s.hearth h).stallc + 1 } := by
  rw [State.stallCycle, State.drain_nil _ _ hsb]
  rfl

theorem State.waitCycle_nil {s : State} {h : Hid} (hsb : (s.hearth h).sb = []) :
    s.waitCycle h =
      s.setHearth h { s.hearth h with clk := (s.hearth h).clk + 1, waitc := (s.hearth h).waitc + 1 } := by
  rw [State.waitCycle, State.drain_nil _ _ hsb]
  rfl

theorem State.waitN_nil {h : Hid} (n : Nat) : ∀ {s : State}, (s.hearth h).sb = [] →
    s.waitN h n =
      s.setHearth h { s.hearth h with clk := (s.hearth h).clk + n, waitc := (s.hearth h).waitc + BitVec.ofNat 32 n } := by
  induction n with
  | zero => intro s _; rw [State.waitN, BitVec.add_zero, Nat.add_zero]; exact (s.setHearth_self h).symm
  | succ n ih =>
    intro s hsb
    have hclk : (s.hearth h).clk + 1 + n = (s.hearth h).clk + (n + 1) := by omega
    have hwaitc : (s.hearth h).waitc + 1 + BitVec.ofNat 32 n = (s.hearth h).waitc + BitVec.ofNat 32 (n + 1) := by
      rw [BitVec.ofNat_add, BitVec.add_assoc, BitVec.add_comm 1]; rfl
    rw [State.waitN, State.waitCycle_nil hsb, ih (by rw [State.hearth_setHearth_self]; exact hsb), State.setHearth_setHearth,
      State.hearth_setHearth_self]
    simp only [hclk, hwaitc]

/-! ## The patch buffer and the fulling unit -/

theorem State.foldl_hearths {α : Type} {f : State → α → State} (hf : ∀ s a, (f s a).hearths = s.hearths) (l : List α) :
    ∀ s : State, (l.foldl f s).hearths = s.hearths := by
  induction l with
  | nil => intro s; rfl
  | cons a l ih => intro s; rw [List.foldl_cons, ih, hf]

/-- Patched lines that retire change memory and the stack's buffer, no hearth (06 R181). -/
@[simp] theorem State.patchSettle_hearth (s : State) (k : Fin 8) (h : Hid) : (s.patchSettle k).hearth h = s.hearth h :=
  congrArg (·[h]) (State.foldl_hearths (fun s p => by rw [State.patchWrite, State.setBytes_eq]) _ _)

@[simp] theorem State.dropHalo_hearth (s : State) (h g : Hid) (p : Nat → Bool) : (s.dropHalo h p).hearth g = s.hearth g :=
  congrArg (·[g]) (State.foldl_hearths (f := fun s (t : Nat × TagUser × Nat) => s.dropTag t.1) (fun _ _ => rfl) _ _)

theorem Hearth.foldl_wr (l : List (Nat × Word)) : ∀ x : Hearth,
    l.foldl (fun x w => x.wr w.1 w.2) x = { x with cr := (l.foldl (fun x w => x.wr w.1 w.2) x).cr } := by
  induction l with
  | nil => intro x; rfl
  | cons w l ih => intro x; rw [List.foldl_cons, ih]; rfl

/-- Late writes of FNSm change control registers alone. -/
theorem Hearth.fnsApply_eq (x : Hearth) : x.fnsApply = { x with cr := x.fnsApply.cr, fnsLate := [] } := by
  have hcr : x.fnsApply.cr = (x.fnsLate.foldl (fun x w => x.wr w.1 w.2) x).cr := rfl
  rw [hcr, Hearth.fnsApply, Hearth.foldl_wr]

/-- A unit that computes nothing stops: its requests go, the registers of its hearth stay (08 R248). -/
theorem State.fulStop_idle {s : State} {h : Hid} (hidle : (s.hearth h).computing = false) :
    ((s.fulStop h).hearth h).run = (s.hearth h).run ∧ ((s.fulStop h).hearth h).pc = (s.hearth h).pc
      ∧ ((s.fulStop h).hearth h).g = (s.hearth h).g := by
  have hunwait : ∀ (t : State) p, (t.unwaitAll p).hearth h = t.hearth h := fun _ _ => rfl
  rw [State.fulStop, if_neg (by simp [hidle]), State.modHearth_eq, State.hearth_setHearth_self, hunwait,
    State.dropHalo_hearth, Hearth.fnsApply_eq]
  exact ⟨rfl, rfl, rfl⟩

theorem Hearth.computing_of_ful {x y : Hearth} (hful : y.ful = x.ful) : y.computing = x.computing := by
  rw [Hearth.computing, Hearth.computing, hful]

/-- A hearth that resumes has at most FUL.r and its pending mark changed (08 R248). -/
theorem Hearth.fulResume_eq (x : Hearth) :
    x.fulResume = { x with rs := x.fulResume.rs, fulPend := x.fulResume.fulPend, fulAbort := x.fulResume.fulAbort } := by
  unfold Hearth.fulResume
  split <;> rfl

/-! ## The target of EPWAIT -/

/-- A control register reads what was written to it. -/
theorem Hearth.rd_wr_self {x : Hearth} (hwf : smWf crDefault x.cr = true) (o : Nat) (v : Word) : (x.wr o v).rd o = v := by
  rw [Hearth.rd, Hearth.wr, smGet_smSet _ _ _ _ hwf, if_pos rfl]

/-- EWT with V set holds the 24 bits of its target. -/
theorem fld_ewt {n : Nat} (hn : n < 2 ^ 24) : fld (w32 n ||| bitAt true 31) 0 24 = n := by
  have hv : (bitAt true 31).toNat = 2 ^ 31 := rfl
  have hn' : n < 2 ^ 32 := by omega
  rw [fld_zero, BitVec.toNat_or, hv, Nat.or_mod_two_pow, w32, BitVec.toNat_ofNat, Nat.mod_eq_of_lt hn', Nat.mod_eq_of_lt hn]
  simp

/-- The next epoch has not been reached (R154). -/
theorem State.ewtReached_next {s : State} {h : Hid}
    (hewt : fld ((s.hearth h).rd 0x04C) 0 24 = (s.epochOf h + 1) % 2 ^ 24) : s.ewtReached h = false := by
  rw [State.ewtReached, hewt]
  simp only [decide_eq_false_iff_not]
  omega

/-- The target that EPWAIT latches, with V set: the next epoch (R154). -/
def State.nextTarget (s : State) (h : Hid) : Word := w32 ((s.epochOf h + 1) % 2 ^ 24) ||| bitAt true 31

/-- The hearth in its issue cycle, with the target latched. -/
def State.latched (s : State) (h : Hid) : Hearth := (s.hearth h).masked.wr 0x04C (s.nextTarget h)

theorem State.latched_rd {s : State} (hinv : s.Inv) (h : Hid) : (s.latched h).rd 0x04C = s.nextTarget h :=
  Hearth.rd_wr_self (x := (s.hearth h).masked) (hinv.cr h) _ _

/-- A target just latched is ahead of the epoch. -/
theorem State.ewtReached_latched {s : State} (hinv : s.Inv) (h : Hid) : (s.setHearth h (s.latched h)).ewtReached h = false := by
  apply State.ewtReached_next
  rw [State.hearth_setHearth_self, State.latched_rd hinv, State.nextTarget, fld_ewt (Nat.mod_lt _ (by decide))]
  rfl

end Sys2Proof.Machine
end

section
/-!
The system words (05 R153 to R155, Table OM-9; 06 R169; 03 R85; 08 R241, R242), word by word, and the statement.
-/
namespace Sys2Proof.Machine
open Sys2Proof

/-- A word in straight flow meets no control hazard: its row does what the system word does at its issue. -/
theorem exec_sysRow_straight {s t : State} {h : Hid} (hx : (s.hearth h).Straight) (q : SysWord) (ht : s.sysWord h q = t) :
    exec (sysRow h q) s = .next t := by
  obtain ⟨hpbr, hrep, -⟩ := hx
  have hhazard : ¬ (s.hearth h).sysHazard = true := by simp [Hearth.sysHazard, Hearth.remain, hpbr, hrep]
  have hrow : exec (sysRow h q) s = s.sysWordRow h (fun s => s.sysWord h q) := by cases q <;> rfl
  rw [hrow, State.sysWordRow, if_neg hhazard, ht]

section
variable {s : State} {h : Hid} (hx : (s.hearth h).Straight) (hsb : (s.hearth h).sb = [])
include hx hsb

/-! ## HALT and SLEEP -/

theorem State.halt_stops (hidle : (s.hearth h).computing = false) :
    ((s.halt h).hearth h).run = .halted ∧ ((s.halt h).hearth h).pc = (s.hearth h).pc + 1
      ∧ ((s.halt h).hearth h).g = (s.hearth h).g := by
  have hstop := State.fulStop_idle (s := s.setHearth h { (s.hearth h).advanced with run := .halted }) (h := h)
    (by rw [State.hearth_setHearth_self, Hearth.computing_of_ful (x := s.hearth h) (by simp), hidle])
  rw [State.halt, State.finish_straight hx hsb, State.modHearth_eq, State.hearth_setHearth_self, State.setHearth_setHearth,
    State.patchSettle_hearth]
  simpa using hstop

/-- With no wake condition the hearth sleeps after the word. -/
theorem State.sleep_waits (w : Bool) (hbell : (s.hearth h).doorbell = 0) (hnone : (s.startIssue h).boundary h = none) :
    s.sleep h w = s.setHearth h { (s.hearth h).advanced with wait := .sleep w } := by
  have hbell' : ((s.startIssue h).hearth h).doorbell = 0 := by rw [State.startIssue_eq, State.hearth_setHearth_self]; exact hbell
  simp only [State.sleep, hnone, hbell', State.finish_straight hx hsb]
  simp

/-- With an entry to take the word ends in its one cycle. -/
theorem State.sleep_ends (w : Bool) (hsome : ((s.startIssue h).boundary h).isSome = true) :
    s.sleep h w = s.setHearth h (s.hearth h).advanced := by
  simp only [State.sleep, hsome, Bool.true_or, if_true, State.finish_straight hx hsb]

/-! ## FENCE, FENCE.I and COMMIT -/

theorem State.fence_passes {sc : FenceScope} (hok : sc = .near ∨ (s.hearth h).far = []) :
    s.fence h sc = s.setHearth h (s.hearth h).advanced := by
  have hfence : (s.hearth h).fenceOk sc = true := by
    rcases hok with rfl | hfar
    · simp [Hearth.fenceOk, hsb]
    · cases sc <;> simp [Hearth.fenceOk, hsb, hfar]
  rw [State.fence, if_pos hfence, State.finish_straight hx hsb]

theorem State.fenceI_hearth (hnew : (s.hearth h).sbNew = []) :
    (s.fenceI h).hearth h = { (s.hearth h).advanced with clk := (s.hearth h).clk + 12 }.invalidate := by
  rw [State.fenceI, State.finishNow_straight hx hsb, State.extraCycles_nil _ _ _ (by simp [hsb, hnew])]
  simp

/-- Without far accesses under way COMMIT issues and waits, and reports the first of an epoch. -/
theorem State.commit_passes (hfar : (s.hearth h).far = []) :
    s.commit h = s.setHearth h (if (s.hearth h).committed then { (s.hearth h).advanced with wait := .commit }
      else { (s.hearth h).advanced with wait := .commit, report := some (s.epochOf h), cmtPend := true, cmtEdge := false }) := by
  have hfence : (s.hearth h).fenceOk .both = true := by simp [Hearth.fenceOk, hsb, hfar]
  rw [State.commit, if_pos hfence, State.finish_straight hx hsb, State.modHearth_eq, State.hearth_setHearth_self,
    State.setHearth_setHearth]

/-! ## SYNC -/

/-- A participant arrives at the barrier and waits there (08 R241). -/
theorem State.syncWord_arrives {sc : SyncScope} (hpart : (s.hearth h).takesPart 0 sc = true) :
    s.syncWord h sc = s.setHearth h { (s.hearth h).advanced with arr0 := some sc, arrLost := false, wait := .sync sc } := by
  simp only [State.syncWord, hpart, if_true, State.finish_straight hx hsb, State.modHearth_eq, State.hearth_setHearth_self,
    State.setHearth_setHearth]

/-- A hearth that takes no part spends the 4 cycles of a stack's barrier (08 R242). -/
theorem State.syncWord_stack_passes (hnew : (s.hearth h).sbNew = []) (hpart : (s.hearth h).takesPart 0 .stack = false) :
    s.syncWord h .stack = s.setHearth h { (s.hearth h).advanced with
      clk := (s.hearth h).clk + 1 + 4, waitc := (s.hearth h).waitc + 4 } := by
  have htime : ∀ t : State, t.barrierTime h .stack = 4 := fun _ => rfl
  simp only [State.syncWord, hpart, Bool.false_eq_true, if_false, State.finish_straight hx hsb, htime]
  rw [State.waitN_nil _ (by simp [hsb, hnew])]
  simp

end

/-- A fence over far accesses is held a cycle while one is under way. -/
theorem State.fence_stalls {s : State} {h : Hid} {sc : FenceScope} (hsc : sc ≠ .near) (hfar : (s.hearth h).far ≠ []) :
    s.fence h sc = s.stallCycle h false := by
  have hfence : (s.hearth h).fenceOk sc = false := by
    cases sc with
    | near => exact absurd rfl hsc
    | far => simp [Hearth.fenceOk, hfar]
    | both => simp [Hearth.fenceOk, hfar]
  rw [State.fence, if_neg (by simp [hfence])]

theorem State.commit_stalls {s : State} {h : Hid} (hfar : (s.hearth h).far ≠ []) : s.commit h = s.stallCycle h false := by
  have hfence : (s.hearth h).fenceOk .both = false := by simp [Hearth.fenceOk, hfar]
  rw [State.commit, if_neg (by simp [hfence])]

/-! ## EPWAIT and DEBUG_RESUME -/

/-- Without a target EPWAIT latches the next epoch and waits a first cycle (R154). -/
theorem State.epwait_waits {s : State} {h : Hid} (hinv : s.Inv) (hsb : (s.hearth h).sb = [])
    (hfree : ((s.hearth h).rd 0x04C).getLsbD 31 = false) :
    s.epwait h = s.setHearth h { s.latched h with
      clk := (s.hearth h).clk + 1, waitc := (s.hearth h).waitc + 1, wait := .epwait } := by
  have hv : ((s.startIssue h).hearth h).ewtV = false := by rw [State.startIssue_eq, State.hearth_setHearth_self]; exact hfree
  have hlatch : (s.startIssue h).modHearth h (fun x => x.wr 0x04C ((s.startIssue h).nextTarget h)) =
      s.setHearth h (s.latched h) := by
    rw [State.startIssue_eq, State.modHearth_eq, State.hearth_setHearth_self, State.setHearth_setHearth]
    rfl
  have hsb' : ((s.setHearth h (s.latched h)).hearth h).sb = [] := by rw [State.hearth_setHearth_self]; exact hsb
  unfold State.nextTarget at hlatch
  simp only [State.epwait, hv, Bool.false_eq_true, if_false, hlatch, State.ewtReached_latched hinv]
  rw [State.waitCycle_nil hsb', State.modHearth_eq, State.setHearth_setHearth]
  simp only [State.hearth_setHearth_self, State.setHearth_setHearth]
  rfl

theorem execDebugResume_halted {s : State} {h : Hid} (hrun : (s.hearth h).run = .halted) :
    execDebugResume h s = .next (s.setHearth h ({ s.hearth h with run := .running } : Hearth).invalidate.fulResume) := by
  rw [execDebugResume, if_pos hrun]
  rfl

/-! ## The statement -/

/-- Settles O19, word by word. -/
theorem systemWordsHaltWaitAndFence : Obligations.SystemWordsHaltWaitAndFence := by
  intro s h hinv hx hsb hnew
  have hrow : ∀ q {t}, s.sysWord h q = t → exec (sysRow h q) s = .next t := fun q _ => exec_sysRow_straight hx q
  have hstall := State.stallCycle_nil hsb
  refine ⟨fun hidle => ?_, fun w hbell hnone => ?_, fun w hsome hwait => ?_, fun sc hok => ?_, fun sc hsc hfar => ?_, ?_,
    fun hfar => ?_, fun hfar => ?_, fun hfree => ?_, fun sc hpart => ?_, fun hpart => ?_, fun hrun => ?_⟩
  · exact ⟨_, hrow .halt rfl, State.halt_stops hx hsb hidle⟩
  · exact ⟨_, hrow (.sleep w) (State.sleep_waits hx hsb w hbell hnone), State.issued_setHearth hx (by simp), by simp⟩
  · exact ⟨_, hrow (.sleep w) (State.sleep_ends hx hsb w hsome), State.issued_setHearth hx (by simp), by simpa using hwait⟩
  · exact ⟨_, hrow (.fence sc) (State.fence_passes hx hsb hok), State.issued_setHearth hx (by simp)⟩
  · exact ⟨_, hrow (.fence sc) ((State.fence_stalls hsc hfar).trans hstall), by simp⟩
  · refine ⟨_, hrow .fenceI rfl, ?_⟩
    simp [State.sysWord, State.fenceI_hearth hx hsb hnew, Hearth.invalidate]
  · have hcommit := State.commit_passes hx hsb hfar
    cases hdone : (s.hearth h).committed with
    | true =>
      rw [if_pos hdone] at hcommit
      exact ⟨_, hrow .commit hcommit, State.issued_setHearth hx (by simp), by simp⟩
    | false =>
      rw [if_neg (by simp [hdone])] at hcommit
      exact ⟨_, hrow .commit hcommit, State.issued_setHearth hx (by simp), by simp⟩
  · exact ⟨_, hrow .commit ((State.commit_stalls hfar).trans hstall), by simp⟩
  · refine ⟨_, hrow .epwait (State.epwait_waits hinv hsb hfree), ?_⟩
    rw [State.hearth_setHearth_self]
    exact ⟨rfl, rfl, rfl, State.latched_rd hinv h⟩
  · exact ⟨_, hrow (.sync sc) (State.syncWord_arrives hx hsb hpart), State.issued_setHearth hx (by simp), by simp⟩
  · exact ⟨_, hrow (.sync .stack) (State.syncWord_stack_passes hx hsb hnew hpart), State.issued_setHearth hx rfl, by simp⟩
  · refine ⟨_, execDebugResume_halted hrun, ?_⟩
    rw [State.hearth_setHearth_self, Hearth.fulResume_eq]
    exact ⟨rfl, rfl, rfl, rfl, rfl⟩

end Sys2Proof.Machine
end
